-- ==== Sys2Proof/Word.lean ====
section
/-! DEFINITION. Words of the wire, and the two small fixed tables the device is built from (six copies or spindles, four staging slots). -/

namespace Sys2Proof

/-- One byte on the wire (R154). -/
abbrev Byte := BitVec 8

/-- A 16-bit word on the wire (R167): a sample, a mask, a position. -/
abbrev Word := BitVec 16

/-- A depth on the wire, three bytes (R167). -/
abbrev Depth := BitVec 24

/-- Spindle n of the manual (1 to 6) is number n - 1 here. -/
abbrev SpindleId := Fin 6

/-- Copy slot 0 to 5. -/
abbrev CopySlot := Fin 6

/-- A table of six entries, numbered 0 to 5. -/
structure Six (α : Type) where
  a0 : α
  a1 : α
  a2 : α
  a3 : α
  a4 : α
  a5 : α
deriving DecidableEq, Repr

/-- Entry i. -/
def Six.get {α : Type} (t : Six α) (i : Fin 6) : α :=
  match i with
  | 0 => t.a0
  | 1 => t.a1
  | 2 => t.a2
  | 3 => t.a3
  | 4 => t.a4
  | 5 => t.a5

/-- The table with entry i replaced. -/
def Six.set {α : Type} (t : Six α) (i : Fin 6) (x : α) : Six α :=
  match i with
  | 0 => { t with a0 := x }
  | 1 => { t with a1 := x }
  | 2 => { t with a2 := x }
  | 3 => { t with a3 := x }
  | 4 => { t with a4 := x }
  | 5 => { t with a5 := x }

/-- Every entry put through f. -/
def Six.map {α β : Type} (f : α → β) (t : Six α) : Six β :=
  ⟨f t.a0, f t.a1, f t.a2, f t.a3, f t.a4, f t.a5⟩

/-- Every entry put through a function of its number. -/
def Six.mapWith {α β : Type} (f : Fin 6 → α → β) (t : Six α) : Six β :=
  ⟨f 0 t.a0, f 1 t.a1, f 2 t.a2, f 3 t.a3, f 4 t.a4, f 5 t.a5⟩

/-- Six equal entries. -/
def Six.fill {α : Type} (x : α) : Six α := ⟨x, x, x, x, x, x⟩

/-- The entries in order. -/
def Six.toList {α : Type} (t : Six α) : List α := [t.a0, t.a1, t.a2, t.a3, t.a4, t.a5]

/-- The six numbers in order. -/
def allSix : List (Fin 6) := [0, 1, 2, 3, 4, 5]

/-- A table of four entries, numbered 0 to 3. -/
structure Four (α : Type) where
  b0 : α
  b1 : α
  b2 : α
  b3 : α
deriving DecidableEq, Repr

/-- Entry i. -/
def Four.get {α : Type} (t : Four α) (i : Fin 4) : α :=
  match i with
  | 0 => t.b0
  | 1 => t.b1
  | 2 => t.b2
  | 3 => t.b3

/-- The table with entry i replaced. -/
def Four.set {α : Type} (t : Four α) (i : Fin 4) (x : α) : Four α :=
  match i with
  | 0 => { t with b0 := x }
  | 1 => { t with b1 := x }
  | 2 => { t with b2 := x }
  | 3 => { t with b3 := x }

/-- Four equal entries. -/
def Four.fill {α : Type} (x : α) : Four α := ⟨x, x, x, x⟩

/-- The entries in order. -/
def Four.toList {α : Type} (t : Four α) : List α := [t.b0, t.b1, t.b2, t.b3]

/-- The four numbers in order. -/
def allFour : List (Fin 4) := [0, 1, 2, 3]

end Sys2Proof
end

