-- ==== Sys2Proof/Config.lean ====
section
/-! DEFINITION. Limits the manual fixes, and the one value it leaves free. -/

namespace Sys2Proof.Config

/-- A sample that is no reading (NR), 65535 (Units and quantities). -/
def nr : Word := 0xFFFF#16

/-- The deepest depth, 262143 du (Units and quantities). -/
def maxDepth : Nat := 262143

/-- Where 16-bit counters stop (R5, R43). -/
def maxCounter : Nat := 65535

/-- Live strips a copy can hold (R64). -/
def maxStrips : Nat := 4096

/-- The retry count at which a further shortfall removes a strip as stuck (R79). -/
def maxRetries : Nat := 3

/-- Consecutive low REFCLK periods of RESET_N that make a reset (R179). -/
def resetPeriods : Nat := 25

/-- FREE VALUE (log 7). The order in which the hand-on work of one event is taken (R99, R106), and in which the strips
one SET PASS withdraws leave (R116): the n-th time an order is needed, this number selects it. Nothing is known of it. -/
opaque handOnOrder : Nat → Nat

end Sys2Proof.Config
end

