-- ==== Sys2Proof/Machine/Wire.lean ====
section
/-! DEFINITION. Byte order, CRC-16, answer codes and the answer envelope (R166 to R168). -/

namespace Sys2Proof.Machine

/-- n in one byte. -/
def u8 (n : Nat) : List Byte := [BitVec.ofNat 8 n]

/-- n in two bytes, most significant first (Conventions, Bytes on the wire). -/
def u16 (n : Nat) : List Byte := [BitVec.ofNat 8 (n / 256), BitVec.ofNat 8 n]

/-- n in three bytes, most significant first. -/
def u24 (n : Nat) : List Byte := [BitVec.ofNat 8 (n / 65536), BitVec.ofNat 8 (n / 256), BitVec.ofNat 8 n]

/-- A flag or a yes-or-no item: 01h or 00h (R168). -/
def flag (b : Bool) : List Byte := [if b then 1#8 else 0#8]

/-- A 16-bit word, most significant byte first. -/
def word2 (w : Word) : List Byte := [w.extractLsb' 8 8, w.extractLsb' 0 8]

/-- A three-byte depth, most significant byte first. -/
def depth3 (d : Depth) : List Byte := [d.extractLsb' 16 8, d.extractLsb' 8 8, d.extractLsb' 0 8]

/-- Eight content bytes, the most significant first (R175). -/
def content8 (c : BitVec 64) : List Byte :=
  [c.extractLsb' 56 8, c.extractLsb' 48 8, c.extractLsb' 40 8, c.extractLsb' 32 8,
    c.extractLsb' 24 8, c.extractLsb' 16 8, c.extractLsb' 8 8, c.extractLsb' 0 8]

/-- An item given as a value or none: 00h, or 01h and the value's bytes (R168). -/
def optional {α : Type} (enc : α → List Byte) : Option α → List Byte
  | none => [0#8]
  | some x => 1#8 :: enc x

/-- A list sent as a 1-byte count of records followed by the records (R168). -/
def counted {α : Type} (enc : α → List Byte) (l : List α) : List Byte := u8 l.length ++ l.flatMap enc

/-- One shift of the CRC register (R166). -/
def crcShift (r : Word) : Word := if r.getLsbD 15 then (r <<< 1) ^^^ 0x1021#16 else r <<< 1

/-- One byte into the CRC register: into its high eight bits, then eight shifts (R166). -/
def crcByte (r : Word) (b : Byte) : Word :=
  crcShift (crcShift (crcShift (crcShift (crcShift (crcShift (crcShift (crcShift (r ^^^ (b ++ 0#8)))))))))

/-- CRC-16 of a run of bytes, starting from FFFFh (R166). -/
def crc16 (bytes : List Byte) : Word := bytes.foldl crcByte 0xFFFF#16

/-- The answer codes (R168). -/
inductive AnswerCode where
  | ok | clamped | pending | none | wait | holding | late | stale
  | badFrame | badCrc | badArg | badState | noSlot | notOpen | dependent | incomplete
  | extent | empty | held | limit | unbound | notHeld | full | closed
deriving DecidableEq, Repr

/-- The byte of an answer code (R168). -/
def answerByte : AnswerCode → Byte
  | .ok => 0x00#8
  | .clamped => 0x01#8
  | .pending => 0x02#8
  | .none => 0x03#8
  | .wait => 0x04#8
  | .holding => 0x05#8
  | .late => 0x06#8
  | .stale => 0x07#8
  | .badFrame => 0x80#8
  | .badCrc => 0x81#8
  | .badArg => 0x82#8
  | .badState => 0x83#8
  | .noSlot => 0x84#8
  | .notOpen => 0x85#8
  | .dependent => 0x86#8
  | .incomplete => 0x87#8
  | .extent => 0x88#8
  | .empty => 0x89#8
  | .held => 0x8A#8
  | .limit => 0x8B#8
  | .unbound => 0x8C#8
  | .notHeld => 0x8D#8
  | .full => 0x8E#8
  | .closed => 0x8F#8

/-- What an answer slot holds: the answer code and the data bytes. Length and CRC follow from them (R168). -/
structure Envelope where
  code : AnswerCode
  data : List Byte
deriving DecidableEq, Repr

/-- The envelope as it is clocked out: code, data length, data, CRC over the three (R168). -/
def envelopeBytes (e : Envelope) : List Byte :=
  let body := answerByte e.code :: (u16 e.data.length ++ e.data)
  body ++ word2 (crc16 body)

end Sys2Proof.Machine
end

