-- ==== Sys2Proof/Syntax.lean ====
section
/-! DEFINITION. The commands: one constructor for each row of the opcode table, with the row's operands at the widths of R167. -/

namespace Sys2Proof

/-- The eight ports (00_scope.md, Masters and ports). -/
inductive PortId where
  | plan
  | scan
  | spindle (n : SpindleId)
deriving DecidableEq, Repr

/-- How a frame of fewer than three whole bytes stands: `whole` is a status poll whose chip select has risen again;
`begun` is a frame whose chip select is still low, so that its status byte has been sampled (R156, R161) and the
frame goes on. -/
inductive PollPhase where
  | whole
  | begun
deriving DecidableEq, Repr

/-- What is wrong with a bad request frame (R157), in the order of the checks: the CRC (with the frame's first
byte), the code, the length. -/
inductive FrameFlaw where
  | crc (first : Byte)
  | code
  | length
deriving DecidableEq, Repr

/-- Delivery direction of a strip (R65, R67). -/
inductive Direction where
  | forward
  | reverse
deriving DecidableEq, Repr

/-- One strip descriptor (R67, R167). -/
structure Descriptor where
  endMark : Bool
  direction : Direction
  row : BitVec 14
  first : Word
  lengthCode : Byte
deriving DecidableEq, Repr

/-- The 27 argument bytes of DEFINE COPY (R28, R169). -/
structure CopyArgs where
  slot : Byte
  ox : Word
  oy : Word
  w : Word
  h : Word
  k : Word
  z0 : Word
  limit : Depth
  f0 : Depth
  margin : Byte
  tolerance : Word
  leaseTime : Word
  waitHold : Word
  stopOnSpoil : Byte
deriving DecidableEq, Repr

/-- The commands. -/
inductive Instr where
  /-- R159: a FETCH frame of `clocked` whole bytes on port p; `crcGood` says whether its bytes 2 and 3 are right. -/
  | fetch (p : PortId) (crcGood : Bool) (clocked : Nat)
  /-- R154. -/
  | statusPoll (p : PortId) (phase : PollPhase)
  /-- R162. -/
  | status (p : PortId)
  /-- R157. -/
  | badFrame (p : PortId) (flaw : FrameFlaw)
  /-- R171. -/
  | clearEvents (p : PortId) (mask : Word)
  /-- R173. -/
  | setAttention (p : PortId) (mask : Word) (term : Byte)
  /-- R163. -/
  | portReset (p : PortId)
  /-- R164. -/
  | warmReset
  /-- R179: the supplies come up; `resetHigh` is the level of RESET_N when the supply monitor lets go. -/
  | powerOn (resetHigh : Bool)
  /-- R179: RESET_N seen low on `periods` consecutive reference clock periods. -/
  | resetPin (periods : Nat)
  /-- R179: RESET_N seen high. -/
  | resetRelease
  /-- R121: the millisecond tick of one spindle. -/
  | millisecondTick (n : SpindleId)
  /-- R125: the tick of one spindle at which a running lease reaches 0. -/
  | leaseExpiry (n : SpindleId)
  /-- R135: the tick of one spindle at which its hold reaches 0. -/
  | holdCountdownEnd (n : SpindleId)
  /-- R8. -/
  | openTile (tx ty : Byte)
  /-- R9. -/
  | rescanPreloadCompletion
  /-- R10. -/
  | putSamples (tx ty : Byte) (offset : Word) (samples : List Word)
  /-- R12. -/
  | viewStaging (tx ty : Byte) (offset : Word) (count : Byte)
  /-- R13. -/
  | sealTile (tx ty : Byte) (crc : Word)
  /-- R16. -/
  | sealCompletion
  /-- R19. -/
  | dropTile (tx ty : Byte)
  /-- R2. -/
  | defineRelief (mw mh : Word)
  /-- R21. -/
  | readRelief (iy ix0 : Word) (count : Byte)
  /-- R28. -/
  | defineCopy (args : CopyArgs)
  /-- R31. -/
  | clearCompletion (slot : CopySlot)
  /-- R34. -/
  | setPass (slot kind : Byte) (stepDown allowance : Word)
  /-- R36. -/
  | startPass (slot : Byte)
  /-- R37. -/
  | pauseCopy (slot : Byte)
  /-- R38. -/
  | resumeCopy (slot : Byte)
  /-- R39. -/
  | closeCopy (slot : Byte)
  /-- R41. -/
  | bindSpindle (spindle slot : Byte)
  /-- R42. -/
  | unbindSpindle (spindle : Byte)
  /-- R44. -/
  | readFloors (slot : Byte) (cy c0 : Word) (count : Byte)
  /-- R45. -/
  | readCopy (slot zero : Byte)
  /-- R68. -/
  | loadPlan (slot : Byte) (descriptors : List Descriptor)
  /-- R73. -/
  | clearPlan (slot : Byte)
  /-- R83. -/
  | readStrip (slot selector : Byte) (value : Word)
  /-- R88. -/
  | takeStrip (n : SpindleId)
  /-- R100. -/
  | setPrefetch (n : SpindleId) (threshold : Word)
  /-- R107. -/
  | computeCell
  /-- R112. -/
  | drawTargets (n : SpindleId) (count : Byte)
  /-- R114. -/
  | rewindStrip (n : SpindleId)
  /-- R115. -/
  | renew (n : SpindleId)
  /-- R129. -/
  | releaseFence (slot : Byte) (index : Word) (action : Byte)
  /-- R134. -/
  | holdSpindle (spindle : Byte) (time : Word)
  /-- R138. -/
  | reportCut (n : SpindleId) (slot : Byte) (index : Word) (issue : Byte) (floors : List Depth)
  /-- R142: the merge of spindle n handles its next cell. -/
  | mergeCell (n : SpindleId)
  /-- R176: the eight content bytes, the first in the most significant place. -/
  | postOrder (spindle : Byte) (content : BitVec 64)
  /-- R176. -/
  | postNote (n : SpindleId) (content : BitVec 64)
  /-- R177. -/
  | readOrder (n : SpindleId)
  /-- R177. -/
  | readNote (spindle : Byte)
deriving DecidableEq, Repr

end Sys2Proof
end

