-- ==== Sys2Proof/WellFormed.lean ====
section
/-! DEFINITION. Which commands a frame or an event of the device can spell. Most operands cannot be ill-formed, because their types have the widths of R167; the checks here are on lengths. -/

namespace Sys2Proof

/-- The checks, each with its rule:
a FETCH has at least three whole bytes (R159);
a frame that is bad in its CRC does not begin with the FETCH code, which is taken by another rule (R154, R157);
the PUT SAMPLES count is one byte, the REPORT CUT count two (R167);
a LOAD PLAN has 1 to 32 descriptors (R68, R169). -/
def Instr.wellFormed : Instr → Bool
  | .fetch _ _ clocked => decide (3 ≤ clocked)
  | .badFrame _ (.crc first) => decide (first ≠ 0x01#8)
  | .putSamples _ _ _ samples => decide (samples.length ≤ 255)
  | .reportCut _ _ _ _ floors => decide (floors.length ≤ 65535)
  | .loadPlan _ ds => decide (1 ≤ ds.length ∧ ds.length ≤ 32)
  | .badFrame _ .code | .badFrame _ .length
  | .statusPoll _ _ | .status _ | .clearEvents _ _ | .setAttention _ _ _ | .portReset _ | .warmReset
  | .powerOn _ | .resetPin _ | .resetRelease | .millisecondTick _ | .leaseExpiry _ | .holdCountdownEnd _
  | .openTile _ _ | .rescanPreloadCompletion | .viewStaging _ _ _ _ | .sealTile _ _ _ | .sealCompletion
  | .dropTile _ _ | .defineRelief _ _ | .readRelief _ _ _ | .defineCopy _ | .clearCompletion _
  | .setPass _ _ _ _ | .startPass _ | .pauseCopy _ | .resumeCopy _ | .closeCopy _ | .bindSpindle _ _
  | .unbindSpindle _ | .readFloors _ _ _ _ | .readCopy _ _ | .clearPlan _ | .readStrip _ _ _ | .takeStrip _
  | .setPrefetch _ _ | .computeCell | .drawTargets _ _ | .rewindStrip _ | .renew _ | .releaseFence _ _ _
  | .holdSpindle _ _ | .mergeCell _ | .postOrder _ _ | .postNote _ _ | .readOrder _ | .readNote _ => true

end Sys2Proof
end

