-- ==== Sys2Proof/Decode.lean ====
section
/-! DEFINITION. Frames and commands (R154, R157, R159, R167, R169): which command a frame on a port spells, and the frame of a command. The opcode table gives no bits, so a table word spells no command (log 24). -/

namespace Sys2Proof

open Machine

/-- The command code of R169 a request carries as its first byte. -/
def commandCode : Instr → Option Byte
  | .fetch _ _ _ => some 0x01#8
  | .status _ => some 0x02#8
  | .clearEvents _ _ => some 0x03#8
  | .setAttention _ _ _ => some 0x04#8
  | .portReset _ => some 0x0F#8
  | .openTile _ _ => some 0x20#8
  | .putSamples _ _ _ _ => some 0x21#8
  | .viewStaging _ _ _ _ => some 0x22#8
  | .sealTile _ _ _ => some 0x23#8
  | .dropTile _ _ => some 0x24#8
  | .takeStrip _ => some 0x40#8
  | .drawTargets _ _ => some 0x41#8
  | .rewindStrip _ => some 0x42#8
  | .renew _ => some 0x43#8
  | .reportCut _ _ _ _ _ => some 0x44#8
  | .setPrefetch _ _ => some 0x45#8
  | .readOrder _ => some 0x46#8
  | .postNote _ _ => some 0x47#8
  | .defineRelief _ _ => some 0x60#8
  | .defineCopy _ => some 0x61#8
  | .setPass _ _ _ _ => some 0x62#8
  | .loadPlan _ _ => some 0x63#8
  | .clearPlan _ => some 0x64#8
  | .startPass _ => some 0x65#8
  | .pauseCopy _ => some 0x66#8
  | .resumeCopy _ => some 0x67#8
  | .closeCopy _ => some 0x68#8
  | .bindSpindle _ _ => some 0x69#8
  | .unbindSpindle _ => some 0x6A#8
  | .releaseFence _ _ _ => some 0x6B#8
  | .holdSpindle _ _ => some 0x6C#8
  | .readRelief _ _ _ => some 0x6D#8
  | .readFloors _ _ _ _ => some 0x6E#8
  | .readCopy _ _ => some 0x6F#8
  | .readStrip _ _ _ => some 0x70#8
  | .postOrder _ _ => some 0x71#8
  | .readNote _ => some 0x72#8
  | .warmReset => some 0x73#8
  | .statusPoll _ _ | .badFrame _ _ | .powerOn _ | .resetPin _ | .resetRelease | .millisecondTick _
  | .leaseExpiry _ | .holdCountdownEnd _ | .rescanPreloadCompletion | .sealCompletion | .clearCompletion _
  | .computeCell | .mergeCell _ => none

/-- The port a request arrives on (R169). -/
def requestPort : Instr → PortId
  | .fetch p _ _ | .status p | .clearEvents p _ | .setAttention p _ _ | .portReset p | .statusPoll p _
  | .badFrame p _ => p
  | .openTile _ _ | .putSamples _ _ _ _ | .viewStaging _ _ _ _ | .sealTile _ _ _ | .dropTile _ _ => .scan
  | .takeStrip n | .drawTargets n _ | .rewindStrip n | .renew n | .reportCut n _ _ _ _ | .setPrefetch n _
  | .readOrder n | .postNote n _ => .spindle n
  | .defineRelief _ _ | .defineCopy _ | .setPass _ _ _ _ | .loadPlan _ _ | .clearPlan _ | .startPass _
  | .pauseCopy _ | .resumeCopy _ | .closeCopy _ | .bindSpindle _ _ | .unbindSpindle _ | .releaseFence _ _ _
  | .holdSpindle _ _ | .readRelief _ _ _ | .readFloors _ _ _ _ | .readCopy _ _ | .readStrip _ _ _
  | .postOrder _ _ | .readNote _ | .warmReset | .powerOn _ | .resetPin _ | .resetRelease | .millisecondTick _
  | .leaseExpiry _ | .holdCountdownEnd _ | .rescanPreloadCompletion | .sealCompletion | .clearCompletion _
  | .computeCell | .mergeCell _ => .plan

/-- The five bytes of a strip descriptor (R167). -/
def descriptorBytes (d : Descriptor) : List Byte :=
  [BitVec.ofBool d.endMark ++ BitVec.ofBool (decide (d.direction = .reverse)) ++ d.row.extractLsb' 8 6,
    d.row.extractLsb' 0 8] ++ word2 d.first ++ [d.lengthCode]

/-- The argument bytes of a request, in the order of its rule at the widths of R167 (R169). -/
def argumentBytes : Instr → List Byte
  | .clearEvents _ mask => word2 mask
  | .setAttention _ mask term => word2 mask ++ [term]
  | .openTile tx ty => [tx, ty]
  | .putSamples tx ty offset samples =>
    [tx, ty] ++ word2 offset ++ [BitVec.ofNat 8 samples.length] ++ samples.flatMap word2
  | .viewStaging tx ty offset count => [tx, ty] ++ word2 offset ++ [count]
  | .sealTile tx ty crc => [tx, ty] ++ word2 crc
  | .dropTile tx ty => [tx, ty]
  | .drawTargets _ count => [count]
  | .reportCut _ slot index issue floors =>
    [slot] ++ word2 index ++ [issue] ++ word2 (BitVec.ofNat 16 floors.length) ++ floors.flatMap depth3
  | .setPrefetch _ threshold => word2 threshold
  | .postNote _ content => content8 content
  | .defineRelief mw mh => word2 mw ++ word2 mh
  | .defineCopy a =>
    [a.slot] ++ word2 a.ox ++ word2 a.oy ++ word2 a.w ++ word2 a.h ++ word2 a.k ++ word2 a.z0 ++ depth3 a.limit
      ++ depth3 a.f0 ++ [a.margin] ++ word2 a.tolerance ++ word2 a.leaseTime ++ word2 a.waitHold
      ++ [a.stopOnSpoil]
  | .setPass slot kind stepDown allowance => [slot, kind] ++ word2 stepDown ++ word2 allowance
  | .loadPlan slot ds => [slot] ++ ds.flatMap descriptorBytes
  | .clearPlan slot | .startPass slot | .pauseCopy slot | .resumeCopy slot | .closeCopy slot => [slot]
  | .bindSpindle spindle slot => [spindle, slot]
  | .unbindSpindle spindle | .readNote spindle => [spindle]
  | .releaseFence slot index action => [slot] ++ word2 index ++ [action]
  | .holdSpindle spindle time => [spindle] ++ word2 time
  | .readRelief iy ix0 count => word2 iy ++ word2 ix0 ++ [count]
  | .readFloors slot cy c0 count => [slot] ++ word2 cy ++ word2 c0 ++ [count]
  | .readCopy slot zero => [slot, zero]
  | .readStrip slot selector value => [slot, selector] ++ word2 value
  | .postOrder spindle content => [spindle] ++ content8 content
  | .fetch _ _ _ | .statusPoll _ _ | .status _ | .badFrame _ _ | .portReset _ | .warmReset | .powerOn _
  | .resetPin _ | .resetRelease | .millisecondTick _ | .leaseExpiry _ | .holdCountdownEnd _
  | .rescanPreloadCompletion | .sealCompletion | .clearCompletion _ | .takeStrip _ | .computeCell
  | .rewindStrip _ | .renew _ | .mergeCell _ | .readOrder _ => []

/-- A frame with its CRC (R157). -/
def withCrc (bytes : List Byte) : List Byte := bytes ++ word2 (crc16 bytes)

/-- The frame that spells a request. A FETCH is its code and CRC (R159) and as many bytes as it reads; with a wrong
CRC its third byte is inverted. BAD_FRAME, STATUS_POLL and the device's own events have no frame of their own. -/
def encodeFrame (i : Instr) : Option (List Byte) :=
  match i with
  | .fetch _ good clocked =>
    some ([0x01#8, 0xF1#8, if good then 0xD1#8 else 0x2E#8] ++ List.replicate (clocked - 3) 0#8)
  | _ => (commandCode i).map fun code => withCrc (code :: argumentBytes i)

/-- Sixteen-bit words from bytes, most significant byte first; none for an odd number of bytes. -/
def wordsOf : List Byte → Option (List Word)
  | [] => some []
  | [_] => none
  | b1 :: b0 :: rest => (wordsOf rest).map ((b1 ++ b0) :: ·)

/-- Three-byte depths from bytes; none if they do not come out whole. -/
def depthsOf : List Byte → Option (List Depth)
  | [] => some []
  | b2 :: b1 :: b0 :: rest => (depthsOf rest).map ((b2 ++ b1 ++ b0) :: ·)
  | _ => none

/-- A descriptor from its five bytes (R167). -/
def descriptorOf (b1 b2 b3 b4 b5 : Byte) : Descriptor where
  endMark := b1.getLsbD 7
  direction := if b1.getLsbD 6 then .reverse else .forward
  row := b1.extractLsb' 0 6 ++ b2
  first := b3 ++ b4
  lengthCode := b5

/-- Descriptors from bytes; none if they do not come out whole. -/
def descriptorsOf : List Byte → Option (List Descriptor)
  | [] => some []
  | b1 :: b2 :: b3 :: b4 :: b5 :: rest => (descriptorsOf rest).map (descriptorOf b1 b2 b3 b4 b5 :: ·)
  | _ => none

/-- Eight content bytes from the first in the most significant place. -/
def contentOf (a b c d e f g h : Byte) : BitVec 64 := a ++ b ++ c ++ d ++ e ++ f ++ g ++ h

/-- What R157's checks 2 and 3 make of a code: the port does not carry it, it carries it with another length, or the
request. -/
inductive Verdict where
  | noCode
  | badLength
  | good (i : Instr)
deriving DecidableEq, Repr

/-- The commands every port carries (R169), but FETCH. -/
def decodeCommon (p : PortId) (code : Byte) (args : List Byte) : Verdict :=
  match code.toNat, args with
  | 0x02, [] => .good (.status p)
  | 0x02, _ => .badLength
  | 0x03, [m1, m0] => .good (.clearEvents p (m1 ++ m0))
  | 0x03, _ => .badLength
  | 0x04, [m1, m0, t] => .good (.setAttention p (m1 ++ m0) t)
  | 0x04, _ => .badLength
  | 0x0F, [] => .good (.portReset p)
  | 0x0F, _ => .badLength
  | _, _ => .noCode

/-- The commands of the Scan Port (R169). -/
def decodeScan (code : Byte) (args : List Byte) : Verdict :=
  match code.toNat, args with
  | 0x20, [tx, ty] => .good (.openTile tx ty)
  | 0x20, _ => .badLength
  | 0x21, tx :: ty :: o1 :: o0 :: count :: rest =>
    match wordsOf rest with
    | some samples =>
      if samples.length = count.toNat then .good (.putSamples tx ty (o1 ++ o0) samples) else .badLength
    | none => .badLength
  | 0x21, _ => .badLength
  | 0x22, [tx, ty, o1, o0, count] => .good (.viewStaging tx ty (o1 ++ o0) count)
  | 0x22, _ => .badLength
  | 0x23, [tx, ty, c1, c0] => .good (.sealTile tx ty (c1 ++ c0))
  | 0x23, _ => .badLength
  | 0x24, [tx, ty] => .good (.dropTile tx ty)
  | 0x24, _ => .badLength
  | _, _ => .noCode

/-- The commands of a Spindle Port (R169). -/
def decodeSpindle (n : SpindleId) (code : Byte) (args : List Byte) : Verdict :=
  match code.toNat, args with
  | 0x40, [] => .good (.takeStrip n)
  | 0x40, _ => .badLength
  | 0x41, [count] => .good (.drawTargets n count)
  | 0x41, _ => .badLength
  | 0x42, [] => .good (.rewindStrip n)
  | 0x42, _ => .badLength
  | 0x43, [] => .good (.renew n)
  | 0x43, _ => .badLength
  | 0x44, slot :: i1 :: i0 :: issue :: c1 :: c0 :: rest =>
    match depthsOf rest with
    | some floors =>
      if floors.length = (c1 ++ c0 : Word).toNat then .good (.reportCut n slot (i1 ++ i0) issue floors)
      else .badLength
    | none => .badLength
  | 0x44, _ => .badLength
  | 0x45, [x1, x0] => .good (.setPrefetch n (x1 ++ x0))
  | 0x45, _ => .badLength
  | 0x46, [] => .good (.readOrder n)
  | 0x46, _ => .badLength
  | 0x47, [a, b, c, d, e, f, g, h] => .good (.postNote n (contentOf a b c d e f g h))
  | 0x47, _ => .badLength
  | _, _ => .noCode

/-- The definition and planning commands of the Plan Port, 60h to 69h (R169). -/
def decodePlanLow (code : Byte) (args : List Byte) : Verdict :=
  match code.toNat, args with
  | 0x60, [w1, w0, h1, h0] => .good (.defineRelief (w1 ++ w0) (h1 ++ h0))
  | 0x60, _ => .badLength
  | 0x61, [slot, ox1, ox0, oy1, oy0, w1, w0, h1, h0, k1, k0, z1, z0, l2, l1, l0, f2, f1, f0, m, e1, e0, t1, t0,
      a1, a0, stop] =>
    .good (.defineCopy
      { slot := slot, ox := ox1 ++ ox0, oy := oy1 ++ oy0, w := w1 ++ w0, h := h1 ++ h0, k := k1 ++ k0,
        z0 := z1 ++ z0, limit := l2 ++ l1 ++ l0, f0 := f2 ++ f1 ++ f0, margin := m, tolerance := e1 ++ e0,
        leaseTime := t1 ++ t0, waitHold := a1 ++ a0, stopOnSpoil := stop })
  | 0x61, _ => .badLength
  | 0x62, [slot, kind, p1, p0, a1, a0] => .good (.setPass slot kind (p1 ++ p0) (a1 ++ a0))
  | 0x62, _ => .badLength
  | 0x63, slot :: rest =>
    match descriptorsOf rest with
    | some ds => if 1 ≤ ds.length ∧ ds.length ≤ 32 then .good (.loadPlan slot ds) else .badLength
    | none => .badLength
  | 0x63, _ => .badLength
  | 0x64, [slot] => .good (.clearPlan slot)
  | 0x64, _ => .badLength
  | 0x65, [slot] => .good (.startPass slot)
  | 0x65, _ => .badLength
  | 0x66, [slot] => .good (.pauseCopy slot)
  | 0x66, _ => .badLength
  | 0x67, [slot] => .good (.resumeCopy slot)
  | 0x67, _ => .badLength
  | 0x68, [slot] => .good (.closeCopy slot)
  | 0x68, _ => .badLength
  | 0x69, [spindle, slot] => .good (.bindSpindle spindle slot)
  | 0x69, _ => .badLength
  | _, _ => .noCode

/-- The control and readback commands of the Plan Port, 6Ah to 73h (R169). -/
def decodePlanHigh (code : Byte) (args : List Byte) : Verdict :=
  match code.toNat, args with
  | 0x6A, [spindle] => .good (.unbindSpindle spindle)
  | 0x6A, _ => .badLength
  | 0x6B, [slot, i1, i0, action] => .good (.releaseFence slot (i1 ++ i0) action)
  | 0x6B, _ => .badLength
  | 0x6C, [spindle, t1, t0] => .good (.holdSpindle spindle (t1 ++ t0))
  | 0x6C, _ => .badLength
  | 0x6D, [y1, y0, x1, x0, count] => .good (.readRelief (y1 ++ y0) (x1 ++ x0) count)
  | 0x6D, _ => .badLength
  | 0x6E, [slot, y1, y0, x1, x0, count] => .good (.readFloors slot (y1 ++ y0) (x1 ++ x0) count)
  | 0x6E, _ => .badLength
  | 0x6F, [slot, zero] => .good (.readCopy slot zero)
  | 0x6F, _ => .badLength
  | 0x70, [slot, selector, v1, v0] => .good (.readStrip slot selector (v1 ++ v0))
  | 0x70, _ => .badLength
  | 0x71, [spindle, a, b, c, d, e, f, g, h] => .good (.postOrder spindle (contentOf a b c d e f g h))
  | 0x71, _ => .badLength
  | 0x72, [spindle] => .good (.readNote spindle)
  | 0x72, _ => .badLength
  | 0x73, [] => .good .warmReset
  | 0x73, _ => .badLength
  | _, _ => .noCode

/-- One table of codes, and then another where the first has no such code. -/
def Verdict.orElse (a b : Verdict) : Verdict :=
  match a with
  | .noCode => b
  | _ => a

/-- Checks 2 and 3 of R157 for a port. -/
def decodeCommand (p : PortId) (code : Byte) (args : List Byte) : Verdict :=
  (decodeCommon p code args).orElse <|
    match p with
    | .plan => (decodePlanLow code args).orElse (decodePlanHigh code args)
    | .scan => decodeScan code args
    | .spindle n => decodeSpindle n code args

/-- The command a frame of whole bytes on port p spells, whatever the bytes: a status poll below three bytes (R154), a
FETCH by its first byte (R159), and otherwise what the three checks of R157 make of it. -/
def decodeFrame (p : PortId) (bytes : List Byte) : Instr :=
  match bytes with
  | code :: b2 :: b3 :: rest =>
    if code = 0x01#8 then .fetch p (decide (word2 (crc16 [code]) = [b2, b3])) (rest.length + 3)
    else
      let body := bytes.take (rest.length + 1)
      if bytes.drop (rest.length + 1) = word2 (crc16 body) then
        match decodeCommand p code (body.drop 1) with
        | .good i => i
        | .noCode => .badFrame p .code
        | .badLength => .badFrame p .length
      else .badFrame p (.crc code)
  | _ => .statusPoll p .whole

/-- The command a table word spells: the rows of `spec/opcode_table.json` give no bits, so no word spells one
(log 24). -/
def decodeTableWord (_nbits _w : Nat) : Option Instr := none

end Sys2Proof
end

