-- ==== Sys2Proof/Machine/State.lean ====
section
/-! DEFINITION. The state of the SB-6, all plain data, and its value right after reset. -/

namespace Sys2Proof.Machine

/-! ## Relief Store and Scan Intake Unit (chapter 1) -/

/-- Values listed by key, keys strictly rising. What an unlisted key reads as is said where the list is read. -/
abbrev Cells (α : Type) := List (Nat × α)

/-- Tile states (R3). -/
inductive TileState where
  | absent | staging | sealed | rescanning
deriving DecidableEq, Repr

/-- A tile record (R3) with its two buffers (R4); an offset a buffer does not list reads as NR. -/
structure Tile where
  state : TileState
  sealCount : Nat
  dependents : Nat
  current : Cells Word
  spare : Cells Word
deriving DecidableEq, Repr

/-- A tile of a new tile table (R2). -/
def Tile.fresh : Tile where
  state := .absent
  sealCount := 0
  dependents := 0
  current := []
  spare := []

/-- A tile key (tx, ty). -/
structure TileKey where
  tx : Nat
  ty : Nat
deriving DecidableEq, Repr

/-- The Relief Store (R1, R5, R22). The tile table lists the tiles row by row. -/
structure Relief where
  mw : Nat
  mh : Nat
  tiles : List Tile
  sealedCount : Nat
  wanted : Option TileKey
deriving DecidableEq, Repr

/-- Mode of a staging slot (R7). -/
inductive SlotMode where
  | first | rescan
deriving DecidableEq, Repr

/-- A staging slot in use (R7). `samples` lists the marked offsets with their values; an unlisted offset has no mark.
`preloading`: a RESCAN preload of this slot is in flight (R9). -/
structure Slot where
  key : TileKey
  mode : SlotMode
  samples : Cells Word
  sealing : Bool
  preloading : Bool
deriving DecidableEq, Repr

/-! ## Strips, copies (chapters 2, 4, 7) -/

/-- Strip states (R66). -/
inductive StripState where
  | planned | issued | fenced
deriving DecidableEq, Repr

/-- A tile range (R90). -/
structure Footprint where
  tx0 : Nat
  ty0 : Nat
  tx1 : Nat
  ty1 : Nat
deriving DecidableEq, Repr

/-- A lease (R122). -/
structure Lease where
  remaining : Nat
  running : Bool
deriving DecidableEq, Repr

/-- A strip record (R65) with its index (R64), the lease of an ISSUED strip (R122) and the mark of R140. -/
structure Strip where
  index : Nat
  row : Nat
  first : Nat
  length : Nat
  direction : Direction
  state : StripState
  holder : Option SpindleId
  issue : BitVec 8
  retry : Nat
  footprint : Option Footprint
  lease : Option Lease
  underMerge : Bool
deriving DecidableEq, Repr

/-- Copy states (R27). -/
inductive CopyState where
  | free | clearing | ready | cutting | paused
deriving DecidableEq, Repr

/-- Pass kinds (R34). -/
inductive PassKind where
  | finish | rough
deriving DecidableEq, Repr

/-- A copy's mapping: what fixes the final targets (chapter 3, 3.1). -/
structure Mapping where
  ox : Nat
  oy : Nat
  sigma : Nat
  k : Nat
  z0 : Nat
  limit : Nat
deriving DecidableEq, Repr

/-- A copy's pass values (R34). -/
structure Pass where
  kind : PassKind
  stepDown : Nat
  allowance : Nat
deriving DecidableEq, Repr

/-- The step-down and the allowance of roughing that a copy record holds through a FINISH (R58). -/
structure Roughing where
  stepDown : Nat
  allowance : Nat
deriving DecidableEq, Repr

/-- The six counters of a copy (R43). -/
structure Counters where
  spoil : Nat
  overcut : Nat
  stale : Nat
  stuck : Nat
  clamped : Nat
  held : Nat
deriving DecidableEq, Repr

/-- Every counter 0. -/
def Counters.zero : Counters where
  spoil := 0
  overcut := 0
  stale := 0
  stuck := 0
  clamped := 0
  held := 0

/-- A copy record (R26), its cut map (R33) and its strip table with the queue (R64). `kept` holds the p and a that a SET
PASS with FINISH keeps and a later ROUGH finds (R58), beside those of `pass`, which every SET PASS writes (R34): no answer
shows it (DEDUCED, log 29). The cut map lists the cells whose
floor is not f0, by key; the queue lists the live strips in queue order, each with its index. -/
structure Copy where
  state : CopyState
  w : Nat
  h : Nat
  mapping : Mapping
  f0 : Nat
  margin : Nat
  tolerance : Nat
  leaseTime : Nat
  waitHold : Nat
  stopOnSpoil : Bool
  pass : Pass
  kept : Roughing
  planClosed : Bool
  counters : Counters
  floors : Cells Nat
  queue : List Strip
deriving DecidableEq, Repr

/-- A FREE slot: only the state has meaning, every other field reads 0 (R26). -/
def Copy.free : Copy where
  state := .free
  w := 0
  h := 0
  mapping := { ox := 0, oy := 0, sigma := 0, k := 0, z0 := 0, limit := 0 }
  f0 := 0
  margin := 0
  tolerance := 0
  leaseTime := 0
  waitHold := 0
  stopOnSpoil := false
  pass := { kind := .finish, stepDown := 0, allowance := 0 }
  kept := { stepDown := 0, allowance := 0 }
  planClosed := false
  counters := Counters.zero
  floors := []
  queue := []

/-! ## Spindles, engine, merges (chapters 5 to 8, 10) -/

/-- A strip key: copy slot, index and issue number (R65). -/
structure StripKey where
  copy : CopySlot
  index : Nat
  issue : BitVec 8
deriving DecidableEq, Repr

/-- Computation status of a held strip (R104). -/
inductive CompStatus where
  | awaiting | computing | complete | void
deriving DecidableEq, Repr

/-- An element of an issued list (R87) with its computation status (R104). -/
structure Held where
  key : StripKey
  status : CompStatus
deriving DecidableEq, Repr

/-- A target entry (R59); `key` is the strip it belongs to, of which the wire shows the index. -/
structure Entry where
  key : StripKey
  column : Nat
  target : Nat
  held : Bool
  clamped : Bool
  nothing : Bool
  first : Bool
  last : Bool
deriving DecidableEq, Repr

/-- Where a strip lies. -/
structure Geometry where
  row : Nat
  first : Nat
  length : Nat
  direction : Direction
deriving DecidableEq, Repr

/-- An entry of a departed list (R139). -/
structure Departed where
  key : StripKey
  geometry : Geometry
deriving DecidableEq, Repr

/-- Kinds of merge (R140). -/
inductive MergeKind where
  | heldIssued | heldFenced | stale
deriving DecidableEq, Repr

/-- A merge in flight (R140). `ranged` is the number of floors brought into range (R148); `answers` is no once a port
reset has orphaned the merge (R152). -/
structure Merge where
  kind : MergeKind
  key : StripKey
  geometry : Geometry
  checked : Bool
  targets : List Entry
  floors : List Nat
  ranged : Nat
  done : Nat
  deepened : Nat
  overcut : Nat
  shortfall : Nat
  spoil : Nat
  answers : Bool
deriving DecidableEq, Repr

/-- A REPORT CUT as carried (R138). -/
structure Report where
  slot : Byte
  index : Word
  issue : Byte
  floors : List Depth
deriving DecidableEq, Repr

/-- Origin of a hold (R133). -/
inductive HoldOrigin where
  | plan | scan
deriving DecidableEq, Repr

/-- A mailbox (R175); the first content byte is the most significant. -/
structure Box where
  content : BitVec 64
  full : Bool
deriving DecidableEq, Repr

/-- An emptied mailbox (R175). -/
def Box.empty : Box where
  content := 0#64
  full := false

/-- What the device keeps for one spindle: the spindle record (R86), the hold record (R133), the target queue with its
read position (R110), the departed list (R139), the merge in flight (R140), a waiting report (R152), two mailboxes
(R175). -/
structure Spindle where
  bound : Option CopySlot
  issued : List Held
  threshold : Nat
  holdRemaining : Nat
  holdOrigin : HoldOrigin
  queue : List Entry
  readPos : Nat
  departed : List Departed
  merge : Option Merge
  waiting : Option Report
  order : Box
  note : Box
deriving DecidableEq, Repr

/-- A spindle after power-on (R47, R86, R120, R133, R153, R175). -/
def Spindle.fresh : Spindle where
  bound := none
  issued := []
  threshold := 0
  holdRemaining := 0
  holdOrigin := .plan
  queue := []
  readPos := 0
  departed := []
  merge := none
  waiting := none
  order := Box.empty
  note := Box.empty

/-- A computation in flight (R103). -/
structure Computation where
  holder : SpindleId
  key : StripKey
  mapping : Mapping
  pass : Pass
  nextColumn : Nat
  made : Nat
deriving DecidableEq, Repr

/-- The Target Engine (R103). -/
structure Engine where
  inFlight : Option Computation
  pointer : SpindleId
deriving DecidableEq, Repr

/-- The engine free, its pointer at spindle 6 (R103). -/
def Engine.fresh : Engine where
  inFlight := none
  pointer := 5

/-! ## Ports (chapters 9, 10) -/

/-- Port states (R155). -/
inductive PortState where
  | idle | working | answered
deriving DecidableEq, Repr

/-- Attention terms (R173). -/
inductive Term where
  | any | all
deriving DecidableEq, Repr

/-- The frame on a port: chip select high; in progress, with the status byte sampled at its fall (R156, R161); or
discarded by a reset and still low (R156). -/
inductive FramePhase where
  | none
  | open (status : Byte)
  | dead
deriving DecidableEq, Repr

/-- What a frame has clocked out (R154): byte 1 is the status byte, bytes 2 and 3 are 00h, the envelope's bytes begin
at byte 4, and everything after them is 00h. -/
structure FrameOut where
  status : Byte
  envelope : List Byte
deriving DecidableEq, Repr

/-- A port: its state, answer slot and delivered mark (R155), its latches, mask and term (R170, R173), its attention
line, true when driven low (R174), the frame on it and what the last frame clocked out. -/
structure Port where
  state : PortState
  slot : Option Envelope
  delivered : Bool
  latches : Word
  mask : Word
  term : Term
  line : Bool
  frame : FramePhase
  out : Option FrameOut
deriving DecidableEq, Repr

/-- The eight ports. -/
structure Ports where
  plan : Port
  scan : Port
  spindles : Six Port
deriving DecidableEq, Repr

/-- One port of the eight. -/
def Ports.get (ps : Ports) : PortId → Port
  | .plan => ps.plan
  | .scan => ps.scan
  | .spindle n => ps.spindles.get n

/-- The eight ports with one replaced. -/
def Ports.set (ps : Ports) (p : PortId) (x : Port) : Ports :=
  match p with
  | .plan => { ps with plan := x }
  | .scan => { ps with scan := x }
  | .spindle n => { ps with spindles := ps.spindles.set n x }

/-- The eight port numbers. -/
def allPorts : List PortId := .plan :: .scan :: allSix.map .spindle

/-- The mask bits of a port's latches other than RESET_SEEN: the default mask (R170, R173). -/
def defaultMask : PortId → Word
  | .plan => 0x03FE#16
  | .scan => 0x000E#16
  | .spindle _ => 0x007E#16

/-- A port after a reset of it (R163, R165, R170, R173): RESET_SEEN, the mask bit 0, is the one latch set, and it
asserts the line (R174). -/
def Port.fresh (p : PortId) : Port where
  state := .idle
  slot := none
  delivered := false
  latches := 1#16
  mask := defaultMask p
  term := .any
  line := true
  frame := .none
  out := none

/-- Every port after a reset. -/
def Ports.fresh : Ports where
  plan := Port.fresh .plan
  scan := Port.fresh .scan
  spindles := ⟨Port.fresh (.spindle 0), Port.fresh (.spindle 1), Port.fresh (.spindle 2),
    Port.fresh (.spindle 3), Port.fresh (.spindle 4), Port.fresh (.spindle 5)⟩

/-! ## The machine -/

/-- The whole device. `inReset`: held in reset by RESET_N or the supply monitor (R179). `choices` counts the free orders
used so far (the model's own, log 7, log 8); `pending` is the queue of waiting commands (log 1). -/
structure State where
  relief : Relief
  staging : Four (Option Slot)
  copies : Six Copy
  engine : Engine
  spindles : Six Spindle
  ports : Ports
  inReset : Bool
  choices : Nat
  pending : List Instr
deriving DecidableEq, Repr

/-- The Relief Store after power-on (R25). -/
def Relief.fresh : Relief where
  mw := 0
  mh := 0
  tiles := []
  sealedCount := 0
  wanted := none

/-- The device at the end of a reset (R25, R47, R85, R86, R120, R137, R153, R165, R175, R179). -/
def State.reset : State where
  relief := Relief.fresh
  staging := Four.fill none
  copies := Six.fill Copy.free
  engine := Engine.fresh
  spindles := Six.fill Spindle.fresh
  ports := Ports.fresh
  inReset := false
  choices := 0
  pending := []

/-- Nothing stops the SB-6: the manual gives every request an answer or a refusal status and every event an effect, so
no command ends in a fault. Nobody raises one, and that is safe: a model that never stops hides no behaviour. -/
inductive Fault
deriving DecidableEq, Repr

/-- Why a command may have no meaning. -/
inductive Refusal where
  /-- Raised by an arm of `exec` whose command has no meaning yet. Safe: no claim about that command can be proved. No
  arm raises it now. -/
  | notModelled (mnemonic : String)
deriving DecidableEq, Repr

/-- The outcome of a command. -/
abbrev Result := Host.Outcome State Fault Refusal

end Sys2Proof.Machine
end

