-- ==== Sys2Proof/Machine/Flags.lean ====
section
/-! DEFINITION. Event latches, the attention condition and the status byte (R161, R170, R173, R174). -/

namespace Sys2Proof.Machine

/-- Latches of the Plan Port other than RESET_SEEN (R170). -/
inductive PlanLatch where
  | clearDone | passDone | fenced | stuck | spoil | overcut | stale | tileSealed | noteWaiting
deriving DecidableEq, Repr

/-- Latches of a Spindle Port other than RESET_SEEN (R170). -/
inductive SpindleLatch where
  | stripReady | holdSet | holdEnd | fenced | withdrawn | orderWaiting
deriving DecidableEq, Repr

/-- Latches of the Scan Port other than RESET_SEEN (R170). -/
inductive ScanLatch where
  | sealDone | blockBad | demand
deriving DecidableEq, Repr

/-- Mask bit of a Plan Port latch (R170). -/
def planBit : PlanLatch → Nat
  | .clearDone => 1
  | .passDone => 2
  | .fenced => 3
  | .stuck => 4
  | .spoil => 5
  | .overcut => 6
  | .stale => 7
  | .tileSealed => 8
  | .noteWaiting => 9

/-- Mask bit of a Spindle Port latch (R170). -/
def spindleBit : SpindleLatch → Nat
  | .stripReady => 1
  | .holdSet => 2
  | .holdEnd => 3
  | .fenced => 4
  | .withdrawn => 5
  | .orderWaiting => 6

/-- Mask bit of a Scan Port latch (R170). -/
def scanBit : ScanLatch → Nat
  | .sealDone => 1
  | .blockBad => 2
  | .demand => 3

/-- Mask bit of RESET_SEEN on every port (R170). -/
def resetSeenBit : Nat := 0

/-- The bits that name a latch of the port (R170). -/
def namedBits (p : PortId) : Word := defaultMask p ||| 1#16

/-- Whether the latch of a mask bit is set. -/
def latched (x : Port) (bit : Nat) : Bool := x.latches.getLsbD bit

/-- The attention condition of a port (R174). -/
def attention (x : Port) : Bool :=
  if x.latches.getLsbD resetSeenBit then true
  else match x.term with
    | .any => decide (x.latches &&& x.mask ≠ 0#16)
    | .all => decide (x.mask ≠ 0#16 ∧ x.latches &&& x.mask = x.mask)

/-- The line put where the condition has it; during a reset every line is released (R174, R181). -/
def refreshLine (inReset : Bool) (x : Port) : Port := { x with line := !inReset && attention x }

/-- A latch set and the line evaluated afresh (R170, R174). A latch already set stays set. -/
def setLatch (inReset : Bool) (bit : Nat) (x : Port) : Port :=
  refreshLine inReset { x with latches := x.latches ||| BitVec.twoPow 16 bit }

/-- Port state code of the status byte (R161). -/
def portStateBits : PortState → BitVec 2
  | .idle => 0#2
  | .working => 1#2
  | .answered => 2#2

/-- The status byte of a port (R161); `hold`: the port is a Spindle Port whose spindle's hold is active. -/
def statusByte (x : Port) (hold : Bool) : Byte :=
  portStateBits x.state ++ BitVec.ofBool x.line ++ BitVec.ofBool hold
    ++ BitVec.ofBool (x.latches.getLsbD resetSeenBit) ++ BitVec.ofBool (x.slot.isSome && !x.delivered) ++ 0#2

/-- Whether a status byte shows WORKING (R156). -/
def showsWorking (b : Byte) : Bool := decide (b.extractLsb' 6 2 = 1#2)

end Sys2Proof.Machine
end

