-- ==== Sys2Proof/Machine/Cells.lean ====
section
/-! DEFINITION. The one way sparse contents are read and written: pairs of key and value, keys strictly rising. -/

namespace Sys2Proof.Machine

/-- The value listed at a key. -/
def Cells.lookup {α : Type} : Cells α → Nat → Option α
  | [], _ => none
  | (j, v) :: m, k => if j = k then some v else Cells.lookup m k

/-- The contents with a value listed at a key. -/
def Cells.insert {α : Type} : Cells α → Nat → α → Cells α
  | [], k, v => [(k, v)]
  | (j, u) :: m, k, v =>
    if k < j then (k, v) :: (j, u) :: m
    else if k = j then (k, v) :: m
    else (j, u) :: Cells.insert m k v

/-- The contents with nothing listed at a key. -/
def Cells.erase {α : Type} (m : Cells α) (k : Nat) : Cells α := m.filter fun e => e.1 != k

/-- What a key reads as, where an unlisted key reads as d. -/
def Cells.read {α : Type} (d : α) (m : Cells α) (k : Nat) : α := (m.lookup k).getD d

/-- The contents with a key written, where an unlisted key reads as d. -/
def Cells.write {α : Type} [DecidableEq α] (d : α) (m : Cells α) (k : Nat) (v : α) : Cells α :=
  if v = d then m.erase k else m.insert k v

/-- Consecutive values written from a key on. -/
def Cells.insertRun {α : Type} : Cells α → Nat → List α → Cells α
  | m, _, [] => m
  | m, k, v :: vs => Cells.insertRun (m.insert k v) (k + 1) vs

/-- Keys strictly rising. -/
abbrev Cells.wf {α : Type} (m : Cells α) : Prop := m.Pairwise fun a b => a.1 < b.1

/-- The canonical form where an unlisted key reads as d: keys strictly rising, no listed value d. -/
abbrev Cells.canonical {α : Type} [DecidableEq α] (d : α) (m : Cells α) : Prop := m.wf ∧ ∀ e ∈ m, e.2 ≠ d

end Sys2Proof.Machine
end

