-- ==== Sys2Proof/Machine/Operands.lean ====
section
/-! DEFINITION. Request arguments brought to the values the rules speak of (R26, R41, R67, R167), clamping, saturation, and the records sent in answers (R168). -/

namespace Sys2Proof.Machine

/-- A copy slot argument; none outside 0 to 5 (R26). -/
def slotOf (b : Byte) : Option CopySlot := if h : b.toNat < 6 then some ⟨b.toNat, h⟩ else none

/-- A spindle number argument; none outside 1 to 6 (R41). -/
def spindleOf (b : Byte) : Option SpindleId :=
  if h : 1 ≤ b.toNat ∧ b.toNat ≤ 6 then some ⟨b.toNat - 1, by omega⟩ else none

/-- The manual's number of a spindle. -/
def spindleNumber (n : SpindleId) : Nat := n.val + 1

/-- A pass kind argument; none for a value R167 does not code. -/
def kindOf (b : Byte) : Option PassKind :=
  if b = 0#8 then some .finish else if b = 1#8 then some .rough else none

/-- Actions of RELEASE FENCE (R129). -/
inductive FenceAction where
  | requeue | discard
deriving DecidableEq, Repr

/-- An action argument; none for a value R167 does not code. -/
def actionOf (b : Byte) : Option FenceAction :=
  if b = 0#8 then some .requeue else if b = 1#8 then some .discard else none

/-- Selectors of READ STRIP (R83). -/
inductive Selector where
  | index | position
deriving DecidableEq, Repr

/-- A selector argument; none for a value R167 does not code. -/
def selectorOf (b : Byte) : Option Selector :=
  if b = 0#8 then some .index else if b = 1#8 then some .position else none

/-- A term argument; none for a value R173 does not code. -/
def termOf (b : Byte) : Option Term :=
  if b = 0#8 then some .any else if b = 1#8 then some .all else none

/-- A flag argument is set by any nonzero byte (R167). -/
def flagOf (b : Byte) : Bool := decide (b ≠ 0#8)

/-- The length a length code stands for (R67). -/
def lengthOf (code : Byte) : Nat := if code = 0#8 then 256 else code.toNat

/-- v brought into lo to hi. -/
def clampInto (lo hi v : Nat) : Nat := max lo (min hi v)

/-- A counter raised by n, stopping at 65535 (R43). -/
def raiseCounter (c n : Nat) : Nat := min Config.maxCounter (c + n)

/-- A floor reported above 262143 is brought to 262143 (R138). -/
def rangedFloor (d : Depth) : Nat := min Config.maxDepth d.toNat

/-! Records of answers (R168). -/

/-- A strip key. -/
def keyBytes (k : StripKey) : List Byte := u8 k.copy.val ++ u16 k.index ++ [k.issue]

/-- A tile key. -/
def tileKeyBytes (k : TileKey) : List Byte := u8 k.tx ++ u8 k.ty

/-- Direction code. -/
def directionBytes (d : Direction) : List Byte := u8 (match d with | .forward => 0 | .reverse => 1)

/-- Row, first column, length, direction. -/
def geometryBytes (g : Geometry) : List Byte := u16 g.row ++ u16 g.first ++ u16 g.length ++ directionBytes g.direction

/-- A target entry, eight bytes (R167). -/
def entryBytes (e : Entry) : List Byte :=
  u16 e.key.index ++ u16 e.column ++ u24 e.target ++
    u8 ((if e.held then 1 else 0) + (if e.clamped then 2 else 0) + (if e.nothing then 4 else 0)
      + (if e.first then 8 else 0) + (if e.last then 16 else 0))

/-- Copy state code. -/
def copyStateBytes (s : CopyState) : List Byte :=
  u8 (match s with | .free => 0 | .clearing => 1 | .ready => 2 | .cutting => 3 | .paused => 4)

/-- Strip state code; 0 is UNUSED. -/
def stripStateBytes (s : StripState) : List Byte :=
  u8 (match s with | .planned => 1 | .issued => 2 | .fenced => 3)

/-- Slot mode code. -/
def slotModeBytes (m : SlotMode) : List Byte := u8 (match m with | .first => 0 | .rescan => 1)

/-- Pass kind code. -/
def passKindBytes (k : PassKind) : List Byte := u8 (match k with | .finish => 0 | .rough => 1)

/-- Hold origin code. -/
def holdOriginBytes (o : HoldOrigin) : List Byte := u8 (match o with | .plan => 0 | .scan => 1)

/-- Computation status code. -/
def compStatusBytes (c : CompStatus) : List Byte :=
  u8 (match c with | .awaiting => 0 | .computing => 1 | .complete => 2 | .void => 3)

/-- Merge kind code. -/
def mergeKindBytes (k : MergeKind) : List Byte :=
  u8 (match k with | .heldIssued => 0 | .heldFenced => 1 | .stale => 2)

/-- Term code. -/
def termBytes (t : Term) : List Byte := u8 (match t with | .any => 0 | .all => 1)

/-- A hold record: remaining time and origin. -/
def holdBytes (sp : Spindle) : List Byte := u16 sp.holdRemaining ++ holdOriginBytes sp.holdOrigin

end Sys2Proof.Machine
end

