-- ==== Sys2Proof/Machine/Target.lean ====
section
/-! DEFINITION. The tile grid as readers see it (R1, R4), the target arithmetic (R48 to R61), footprints (R62, R90) and reservation zones (R91). -/

namespace Sys2Proof.Machine

/-- Columns of tiles (R1). -/
def Relief.tw (r : Relief) : Nat := r.mw / 32

/-- Rows of tiles (R1). -/
def Relief.th (r : Relief) : Nat := r.mh / 32

/-- Whether the relief is defined (R1). -/
def Relief.defined (r : Relief) : Bool := decide (r.mw ≠ 0)

/-- Place of a tile in the tile table. -/
def Relief.tileIndex (r : Relief) (k : TileKey) : Nat := k.ty * r.tw + k.tx

/-- The record of a tile key; none outside the grid. -/
def Relief.tile? (r : Relief) (k : TileKey) : Option Tile :=
  if k.tx < r.tw ∧ k.ty < r.th then r.tiles[r.tileIndex k]? else none

/-- The relief with one tile record changed; unchanged outside the grid. -/
def Relief.modifyTile (r : Relief) (k : TileKey) (f : Tile → Tile) : Relief :=
  if k.tx < r.tw ∧ k.ty < r.th then { r with tiles := r.tiles.modify (r.tileIndex k) f } else r

/-- The sample a tile shows at an offset (R4): ABSENT and STAGING tiles show NR. -/
def Tile.sample (t : Tile) (offset : Nat) : Word :=
  match t.state with
  | .absent | .staging => Config.nr
  | .sealed | .rescanning => Cells.read Config.nr t.current offset

/-- The sample of a master cell (R1, R4). -/
def Relief.sample (r : Relief) (ix iy : Nat) : Word :=
  match r.tile? ⟨ix / 32, iy / 32⟩ with
  | some t => t.sample (iy % 32 * 32 + ix % 32)
  | none => Config.nr

/-- Master position across in 1/1024 of a cell (R49). -/
def Mapping.x (m : Mapping) (cx : Nat) : Nat := m.ox * 1024 + cx * m.sigma

/-- Master position down in 1/1024 of a cell (R49). -/
def Mapping.y (m : Mapping) (cy : Nat) : Nat := m.oy * 1024 + cy * m.sigma

/-- An index equal to the extent is replaced by the last one (R50). -/
def lastIndex (extent i : Nat) : Nat := if i = extent then extent - 1 else i

/-- The four samples with their weights (R50, R51). -/
def weightedSamples (r : Relief) (m : Mapping) (cx cy : Nat) : List (Nat × Word) :=
  let ix := m.x cx / 1024
  let fx := m.x cx % 1024
  let iy := m.y cy / 1024
  let fy := m.y cy % 1024
  let ix1 := lastIndex r.mw (ix + 1)
  let iy1 := lastIndex r.mh (iy + 1)
  [((1024 - fx) * (1024 - fy), r.sample ix iy), (fx * (1024 - fy), r.sample ix1 iy),
    ((1024 - fx) * fy, r.sample ix iy1), (fx * fy, r.sample ix1 iy1)]

/-- Whether a missing reading holds the cell: a sample NR with a weight above 0 (R52). -/
def heldByNr (ws : List (Nat × Word)) : Bool := ws.any fun e => decide (0 < e.1) && decide (e.2 = Config.nr)

/-- The weighted sum; a sample of weight 0 adds 0 (R52, R53). -/
def weightedSum (ws : List (Nat × Word)) : Nat := (ws.map fun e => e.1 * e.2.toNat).sum

/-- Interpolated master depth, rounded half up (R53). -/
def interpolate (ws : List (Nat × Word)) : Nat := (weightedSum ws + 524288) / 1048576

/-- Scaled depth, rounded half up (R54). -/
def scaleDepth (d k : Nat) : Nat := (d * k + 512) / 1024

/-- The final target of a cell and whether it was limited to L; none where R52 holds the cell (R55, R56). -/
def finalTarget (r : Relief) (m : Mapping) (cx cy : Nat) : Option (Nat × Bool) :=
  let ws := weightedSamples r m cx cy
  if heldByNr ws then none
  else
    let u := scaleDepth (interpolate ws) m.k + m.z0
    if u ≤ m.limit then some (u, false) else some (m.limit, true)

/-- What a computation makes of a cell: target and flags (R59). -/
structure CellTarget where
  target : Nat
  held : Bool
  clamped : Bool
  nothing : Bool
deriving DecidableEq, Repr

/-- The goal of a pass for a final target (R57, R58). -/
def passGoal (p : Pass) (t : Nat) : Nat :=
  match p.kind with
  | .finish => t
  | .rough => t - p.allowance

/-- The target towards a goal from floor f (R57, R58). -/
def passTarget (p : Pass) (t f : Nat) : Nat :=
  match p.kind with
  | .finish => t
  | .rough => min (f + p.stepDown) (passGoal p t)

/-- The target and flags of a cell with floor f (R52, R55, R57, R58). -/
def cellTarget (r : Relief) (m : Mapping) (p : Pass) (cx cy f : Nat) : CellTarget :=
  match finalTarget r m cx cy with
  | none => { target := f, held := true, clamped := false, nothing := false }
  | some (t, clamped) =>
    if passGoal p t ≤ f then { target := f, held := false, clamped := clamped, nothing := true }
    else { target := passTarget p t f, held := false, clamped := clamped, nothing := false }

/-- Key of a copy cell in its cut map. -/
def floorKey (cx cy : Nat) : Nat := cy * 2048 + cx

/-- The floor of a copy cell (R33); a cell not listed holds f0 (R31). -/
def Copy.floor (c : Copy) (cx cy : Nat) : Nat := Cells.read c.f0 c.floors (floorKey cx cy)

/-- The copy with the floor of a cell written (R33). -/
def Copy.setFloor (c : Copy) (cx cy v : Nat) : Copy :=
  { c with floors := Cells.write c.f0 c.floors (floorKey cx cy) v }

/-- The footprint of a strip (R90). -/
def footprintOf (r : Relief) (m : Mapping) (row first length : Nat) : Footprint :=
  let iy := m.y row / 1024
  let ix0 := m.x first / 1024
  let ix1 := m.x (first + length - 1) / 1024
  { tx0 := ix0 / 32, ty0 := iy / 32,
    tx1 := min (ix1 + 1) (r.mw - 1) / 32, ty1 := min (iy + 1) (r.mh - 1) / 32 }

/-- Whether a footprint covers a tile (R90). -/
def Footprint.covers (f : Footprint) (tx ty : Nat) : Bool :=
  decide (f.tx0 ≤ tx) && decide (tx ≤ f.tx1) && decide (f.ty0 ≤ ty) && decide (ty ≤ f.ty1)

/-- The tiles of a footprint in row-major order (R90). -/
def Footprint.tiles (f : Footprint) : List TileKey :=
  (List.range' f.ty0 (f.ty1 + 1 - f.ty0)).flatMap fun ty =>
    (List.range' f.tx0 (f.tx1 + 1 - f.tx0)).map fun tx => ⟨tx, ty⟩

/-- Whether a tile is SEALED. -/
def Relief.isSealed (r : Relief) (k : TileKey) : Bool :=
  match r.tile? k with
  | some t => decide (t.state = .sealed)
  | none => false

/-- The dependents counts of a footprint's tiles changed (R6). -/
def Relief.adjustDependents (r : Relief) (fp : Footprint) (f : Nat → Nat) : Relief :=
  { r with tiles := r.tiles.mapIdx fun i t =>
      if fp.covers (i % r.tw) (i / r.tw) then { t with dependents := f t.dependents } else t }

/-- A rectangle of copy cells, ends included. -/
structure Zone where
  row0 : Nat
  row1 : Nat
  col0 : Nat
  col1 : Nat
deriving DecidableEq, Repr

/-- The reservation zone of a strip in its copy (R91). -/
def zoneOf (c : Copy) (t : Strip) : Zone :=
  { row0 := t.row - c.margin, row1 := min (c.h - 1) (t.row + c.margin),
    col0 := t.first - c.margin, col1 := min (c.w - 1) (t.first + t.length - 1 + c.margin) }

/-- Two zones meet when they share a row and a column (R91). -/
def Zone.meets (a b : Zone) : Bool :=
  decide (a.row0 ≤ b.row1) && decide (b.row0 ≤ a.row1) && decide (a.col0 ≤ b.col1) && decide (b.col0 ≤ a.col1)

/-- The geometry of a strip. -/
def Strip.geometry (t : Strip) : Geometry :=
  { row := t.row, first := t.first, length := t.length, direction := t.direction }

/-- The column of the i-th cell, from 0, in delivery order (R107, R142). -/
def Geometry.column (g : Geometry) (i : Nat) : Nat :=
  match g.direction with
  | .forward => g.first + i
  | .reverse => g.first + g.length - 1 - i

end Sys2Proof.Machine
end

