-- ==== Sys2Proof/Machine/Ops.lean ====
section
/-! DEFINITION. Shared operations: parts of the state, requests and answers on a port, latches, tiles, staging slots, strips, holds, leases, fences, leaving strips. Taking an exception has no place here: the SB-6 has none (INVENTORY, Faults). -/

namespace Sys2Proof.Machine

/-! ## Parts of the state -/

/-- One port. -/
def State.port (s : State) (p : PortId) : Port := s.ports.get p

/-- The state with one port replaced. -/
def State.setPort (s : State) (p : PortId) (x : Port) : State := { s with ports := s.ports.set p x }

/-- The state with one port changed. -/
def State.modifyPort (s : State) (p : PortId) (f : Port → Port) : State := s.setPort p (f (s.port p))

/-- One copy. -/
def State.copy (s : State) (k : CopySlot) : Copy := s.copies.get k

/-- The state with one copy replaced. -/
def State.setCopy (s : State) (k : CopySlot) (c : Copy) : State := { s with copies := s.copies.set k c }

/-- The state with one copy changed. -/
def State.modifyCopy (s : State) (k : CopySlot) (f : Copy → Copy) : State := s.setCopy k (f (s.copy k))

/-- One spindle. -/
def State.spindle (s : State) (n : SpindleId) : Spindle := s.spindles.get n

/-- The state with one spindle replaced. -/
def State.setSpindle (s : State) (n : SpindleId) (x : Spindle) : State :=
  { s with spindles := s.spindles.set n x }

/-- The state with one spindle changed. -/
def State.modifySpindle (s : State) (n : SpindleId) (f : Spindle → Spindle) : State :=
  s.setSpindle n (f (s.spindle n))

/-- The state with the relief replaced. -/
def State.setRelief (s : State) (r : Relief) : State := { s with relief := r }

/-- The state with one staging slot replaced. -/
def State.setStaging (s : State) (i : Fin 4) (x : Option Slot) : State :=
  { s with staging := s.staging.set i x }

/-- The state with the engine replaced. -/
def State.setEngine (s : State) (e : Engine) : State := { s with engine := e }

/-! ## Latches and answers -/

/-- A latch of the Plan Port set (R170, R174). -/
def State.latchPlan (s : State) (l : PlanLatch) : State :=
  s.modifyPort .plan (setLatch s.inReset (planBit l))

/-- A latch of the Scan Port set (R170, R174). -/
def State.latchScan (s : State) (l : ScanLatch) : State :=
  s.modifyPort .scan (setLatch s.inReset (scanBit l))

/-- A latch of a Spindle Port set (R170, R174). -/
def State.latchSpindle (s : State) (n : SpindleId) (l : SpindleLatch) : State :=
  s.modifyPort (.spindle n) (setLatch s.inReset (spindleBit l))

/-- An answer placed: the port becomes ANSWERED, the delivered mark clear (R155). -/
def State.answer (s : State) (p : PortId) (code : AnswerCode) (data : List Byte) : State :=
  s.modifyPort p fun x => { x with state := .answered, slot := some ⟨code, data⟩, delivered := false }

/-! ## Frames (R154, R156, R158, R161) -/

/-- Whether the status byte of the port shows HOLD (R161): only a Spindle Port's does. -/
def State.holdShown (s : State) : PortId → Bool
  | .plan => false
  | .scan => false
  | .spindle n => decide (0 < (s.spindle n).holdRemaining)

/-- The status byte the port would give at a fall of its chip select now (R161). -/
def State.statusOf (s : State) (p : PortId) : Byte := statusByte (s.port p) (s.holdShown p)

/-- The status byte of the frame on the port: sampled at its fall, which is now unless the frame has begun before. -/
def State.fallStatus (s : State) (p : PortId) : Byte :=
  match (s.port p).frame with
  | .open b => b
  | _ => s.statusOf p

/-- Whether a frame that ends now counts: the device is not held in reset and no reset has discarded the frame
(R156, R179). -/
def State.frameCounts (s : State) (p : PortId) : Bool :=
  !s.inReset && decide ((s.port p).frame ≠ .dead)

/-- A frame that does not count ends: it is not taken; with the device in reset SDO stays high impedance (R179). -/
def State.dropFrame (s : State) (p : PortId) : State :=
  s.modifyPort p fun x => { x with frame := .none, out := if s.inReset then none else x.out }

/-- A frame that counts ends, having clocked out its status byte and an envelope (R154). -/
def State.endFrame (s : State) (p : PortId) (envelope : List Byte) : State :=
  s.modifyPort p fun x => { x with frame := .none, out := some ⟨s.fallStatus p, envelope⟩ }

/-- A request taken: the port WORKING, its slot emptied (R155, R158). -/
def State.take (s : State) (p : PortId) : State :=
  (s.endFrame p []).modifyPort p fun x => { x with state := .working, slot := none, delivered := false }

/-- A request frame at the rise of its chip select (R156, R158): it is not taken if it does not count, it is refused if
its status byte showed WORKING, and otherwise it is taken and decided by its own rule. -/
def State.request (s : State) (p : PortId) (decide_ : State → State) : State :=
  if s.frameCounts p then
    if showsWorking (s.fallStatus p) then s.endFrame p [] else decide_ (s.take p)
  else s.dropFrame p

/-- A good PORT RESET or WARM RESET frame, taken in any port state (R156, R163, R164). -/
def State.requestAnyState (s : State) (p : PortId) (decide_ : State → State) : State :=
  if s.frameCounts p then decide_ (s.endFrame p []) else s.dropFrame p

/-! ## Staging slots -/

/-- Number of set marks of a slot (R7). -/
def Slot.written (x : Slot) : Nat := x.samples.length

/-- The slot in use that holds a key (R7). -/
def State.findSlot (s : State) (k : TileKey) : Option (Fin 4 × Slot) :=
  allFour.findSome? fun i =>
    match s.staging.get i with
    | some x => if x.key = k then some (i, x) else none
    | none => none

/-- The lowest-numbered free slot (R7). -/
def State.freeSlot (s : State) : Option (Fin 4) :=
  allFour.find? fun i => (s.staging.get i).isNone

/-- The state a tile returns to when its slot is given up (R18, R19, R20): ABSENT after a FIRST open, SEALED after a
RESCAN open. -/
def returnState : TileState → TileState
  | .staging => .absent
  | .rescanning => .sealed
  | .absent => .absent
  | .sealed => .sealed

/-- The wanted tile becomes none when it names a tile that has become SEALED (R22). -/
def Relief.clearWanted (r : Relief) (k : TileKey) : Relief :=
  if r.wanted = some k ∧ r.isSealed k then { r with wanted := none } else r

/-- A staging slot freed as DROP TILE frees it (R19, R22): the tile's state returns, nothing else of it changes. -/
def State.freeStaging (s : State) (i : Fin 4) : State :=
  match s.staging.get i with
  | some x =>
    let r := s.relief.modifyTile x.key fun t => { t with state := returnState t.state }
    (s.setRelief (r.clearWanted x.key)).setStaging i none
  | none => s

/-! ## Strips -/

/-- The live strip of an index (R64). -/
def Copy.strip? (c : Copy) (i : Nat) : Option Strip := c.queue.find? fun t => decide (t.index = i)

/-- A strip changed in its place (R64). -/
def Copy.updateStrip (c : Copy) (i : Nat) (f : Strip → Strip) : Copy :=
  { c with queue := c.queue.map fun t => if t.index = i then f t else t }

/-- A strip removed; the strips behind close up (R78). -/
def Copy.removeStrip (c : Copy) (i : Nat) : Copy :=
  { c with queue := c.queue.filter fun t => decide (t.index ≠ i) }

/-- A strip changed and moved to the tail (R64). -/
def Copy.requeueStrip (c : Copy) (i : Nat) (f : Strip → Strip) : Copy :=
  { c with queue := (c.queue.filter fun t => decide (t.index ≠ i))
      ++ (c.queue.filter fun t => decide (t.index = i)).map f }

/-- The strips of a copy in a state. -/
def Copy.count (c : Copy) (st : StripState) : Nat := (c.queue.filter fun t => decide (t.state = st)).length

/-- The key of a strip of copy slot k (R65). -/
def Strip.keyIn (t : Strip) (k : CopySlot) : StripKey := { copy := k, index := t.index, issue := t.issue }

/-- The strip a key names in its copy's table. -/
def State.strip? (s : State) (key : StripKey) : Option Strip := (s.copy key.copy).strip? key.index

/-- The strip a key names changed in its place. -/
def State.updateStrip (s : State) (key : StripKey) (f : Strip → Strip) : State :=
  s.modifyCopy key.copy fun c => c.updateStrip key.index f

/-! ## Target queue and issued list -/

/-- Entries at or after the read position (R110). -/
def Spindle.unread (sp : Spindle) : Nat := sp.queue.length - sp.readPos

/-- A strip's entries leave the queue; the read position stays on the same next entry (R111). -/
def Spindle.dropEntries (sp : Spindle) (key : StripKey) : Spindle :=
  { sp with
    queue := sp.queue.filter fun e => decide (e.key ≠ key)
    readPos := ((sp.queue.take sp.readPos).filter fun e => decide (e.key ≠ key)).length }

/-- A strip leaves the issued list (R87). -/
def Spindle.dropHeld (sp : Spindle) (key : StripKey) : Spindle :=
  { sp with issued := sp.issued.filter fun h => decide (h.key ≠ key) }

/-- A strip joins the tail of the departed list, the oldest of five leaving first (R139). -/
def Spindle.depart (sp : Spindle) (d : Departed) : Spindle :=
  { sp with departed := (sp.departed ++ [d]).drop (sp.departed.length - 3) }

/-- The held strip of a key in an issued list. -/
def Spindle.heldOf (sp : Spindle) (key : StripKey) : Option Held :=
  sp.issued.find? fun h => decide (h.key = key)

/-- A computation status changed (R104). -/
def Spindle.setStatus (sp : Spindle) (key : StripKey) (f : CompStatus → CompStatus) : Spindle :=
  { sp with issued := sp.issued.map fun h => if h.key = key then { h with status := f h.status } else h }

/-- Whether a strip of the issued list is in a state. -/
def State.heldIn (s : State) (h : Held) (st : StripState) : Bool :=
  match s.strip? h.key with
  | some t => decide (t.state = st)
  | none => false

/-- The ISSUED strips of a spindle's issued list, oldest first. -/
def State.issuedStrips (s : State) (n : SpindleId) : List Held :=
  (s.spindle n).issued.filter fun h => s.heldIn h .issued

/-- Whether one of several held strips is the strip of an index in copy k. -/
def names (hs : List Held) (k : CopySlot) (i : Nat) : Bool :=
  hs.any fun h => decide (h.key.copy = k) && decide (h.key.index = i)

/-- The strips several held strips name changed in their places, all at once, knowing their copy. -/
def State.mapNamed (s : State) (hs : List Held) (f : Copy → Strip → Strip) : State :=
  { s with copies := s.copies.mapWith fun k c =>
      { c with queue := c.queue.map fun t => if names hs k t.index then f c t else t } }

/-- The spindles bound to a copy. -/
def State.boundTo (s : State) (k : CopySlot) : List SpindleId :=
  allSix.filter fun n => decide ((s.spindle n).bound = some k)

/-! ## Computations -/

/-- Whether the computation in flight is that of a strip. -/
def State.computes (s : State) (key : StripKey) : Bool :=
  match s.engine.inFlight with
  | some c => decide (c.key = key)
  | none => false

/-- A computation in flight for a strip abandoned: the engine becomes free (R109). -/
def State.abandon (s : State) (key : StripKey) : State :=
  if s.computes key then s.setEngine { s.engine with inFlight := none } else s

/-! ## Strips leaving the held states (R77) -/

/-- The record of a strip that has left its holder and is PLANNED: no holder, footprint, lease or merge mark (R65, R77). -/
def Strip.released (t : Strip) : Strip :=
  { t with state := .planned, holder := none, footprint := none, lease := none, underMerge := false }

/-- What the holder loses when its strip leaves: the entries (R111), the place in the issued list (R87); it keeps a
departed entry unless the copy is being closed (R139). -/
def Spindle.loseStrip (sp : Spindle) (k : CopySlot) (t : Strip) (record : Bool) : Spindle :=
  let key := t.keyIn k
  let sp := (sp.dropEntries key).dropHeld key
  if record then sp.depart { key := key, geometry := t.geometry } else sp

/-- The dependents counts of a strip's recorded footprint lowered (R6). -/
def State.releaseTiles (s : State) (t : Strip) : State :=
  match t.footprint with
  | some fp => s.setRelief (s.relief.adjustDependents fp (· - 1))
  | none => s

/-- The holder's side of a leaving. -/
def State.releaseHolder (s : State) (k : CopySlot) (t : Strip) (record : Bool) : State :=
  match t.holder with
  | some n => s.modifySpindle n fun sp => sp.loseStrip k t record
  | none => s

/-- A strip leaves the ISSUED and FENCED states (R77): tiles, entries, issued list, departed list, computation; its
record is released in place. Where it then goes is said by the caller. -/
def State.leave (s : State) (k : CopySlot) (t : Strip) (record : Bool) : State :=
  (((s.releaseTiles t).releaseHolder k t record).abandon (t.keyIn k)).modifyCopy k
    fun c => c.updateStrip t.index Strip.released

/-- The pass completion of a copy whose plan is closed and that has no live strip (R81, R38). -/
def State.completePass (s : State) (k : CopySlot) : State :=
  (s.modifyCopy k fun c => { c with state := .ready, planClosed := false }).latchPlan .passDone

/-- The pass completion test (R81). -/
def State.testPass (s : State) (k : CopySlot) : State :=
  let c := s.copy k
  if c.state = .cutting ∧ c.planClosed = true ∧ c.queue = [] then s.completePass k else s

/-! ## Leases and fences -/

/-- A lease set back to a lease time, its mode kept (R123). -/
def Strip.restartLease (t : Strip) (leaseTime : Nat) : Strip :=
  { t with lease := t.lease.map fun l => { l with remaining := leaseTime } }

/-- The leases of several held strips restarted, each from its copy's lease time (R123). -/
def State.restartLeases (s : State) (hs : List Held) : State :=
  s.mapNamed hs fun c t => t.restartLease c.leaseTime

/-- The record of a strip fenced: its lease ends, everything else stays (R126). -/
def Strip.fenced (t : Strip) : Strip := { t with state := .fenced, lease := none }

/-- The computation status after a fence (R104): an AWAITING strip becomes VOID. -/
def fencedStatus : CompStatus → CompStatus
  | .awaiting => .void
  | .computing => .computing
  | .complete => .complete
  | .void => .void

/-- Several strips of spindle n fenced as one event (R126). -/
def State.fenceAll (s : State) (n : SpindleId) (hs : List Held) : State :=
  (s.mapNamed hs fun _ t => t.fenced).modifySpindle n fun sp =>
    { sp with issued := sp.issued.map fun h =>
        if hs.any (fun g => decide (g.key = h.key)) then { h with status := fencedStatus h.status } else h }

/-! ## Holds -/

/-- A hold set (R95, R134): the record, and HOLD_SET. -/
def State.setHold (s : State) (n : SpindleId) (time : Nat) (origin : HoldOrigin) : State :=
  (s.modifySpindle n fun sp => { sp with holdRemaining := time, holdOrigin := origin }).latchSpindle n .holdSet

/-- A hold ended, without the evaluation that follows (R135 steps 1 and 2). -/
def State.endHold (s : State) (n : SpindleId) : State :=
  (s.modifySpindle n fun sp => { sp with holdRemaining := 0, holdOrigin := .plan }).latchSpindle n .holdEnd

end Sys2Proof.Machine
end

