-- ==== Sys2Proof/Machine/Work.lean ====
section
/-! DEFINITION. The work events hand on: the search and the issue (R89 to R95), auto-prefetch (R97), the grant (R105), the decision of a report (R138 to R141), and the free order in which one event's hand-on work is taken (R99, R106). -/

namespace Sys2Proof.Machine

/-! ## The grant -/

/-- The oldest AWAITING strip of a spindle (R105). -/
def Spindle.oldestAwaiting (sp : Spindle) : Option Held :=
  sp.issued.find? fun h => decide (h.status = .awaiting)

/-- The spindles in the order of their numbers starting after the pointer (R105). -/
def afterPointer (pointer : SpindleId) : List SpindleId :=
  [pointer + 1, pointer + 2, pointer + 3, pointer + 4, pointer + 5, pointer]

/-- Whether a spindle is a candidate of the grant. -/
def State.candidate (s : State) (n : SpindleId) : Bool := (s.spindle n).oldestAwaiting.isSome

/-- The spindle a grant goes to (R105): the first STARVING candidate after the pointer, or else the first candidate. -/
def State.grantee (s : State) : Option SpindleId :=
  let order := (afterPointer s.engine.pointer).filter s.candidate
  match order.find? fun n => decide ((s.spindle n).unread = 0) with
  | some n => some n
  | none => order.head?

/-- The computation of a strip started (R105, R107): the values read once (R48), the first column in delivery order. -/
def State.startComputation (s : State) (n : SpindleId) (h : Held) (t : Strip) : State :=
  let c := s.copy h.key.copy
  (s.modifySpindle n fun sp => sp.setStatus h.key fun _ => .computing).setEngine
    { pointer := n
      inFlight := some { holder := n, key := h.key, mapping := c.mapping, pass := c.pass,
                         nextColumn := t.geometry.column 0, made := 0 } }

/-- The grant test (R105). -/
def State.grantTest (s : State) : State :=
  match s.engine.inFlight with
  | some _ => s
  | none =>
    match s.grantee with
    | none => s
    | some n =>
      match (s.spindle n).oldestAwaiting with
      | none => s
      | some h =>
        match s.strip? h.key with
        | none => s
        | some t => s.startComputation n h t

/-- A strip leaves as RELEASE FENCE lets it (R130): where its computation was abandoned, a grant is tested with the
leaving, before the evaluations that follow. -/
def State.leaveAndGrant (s : State) (k : CopySlot) (t : Strip) : State :=
  let v := s.leave k t true
  if s.computes (t.keyIn k) then v.grantTest else v

/-! ## The search and the issue -/

/-- The footprint of a strip of copy k (R90). -/
def State.footprintOf (s : State) (k : CopySlot) (t : Strip) : Footprint :=
  Machine.footprintOf s.relief (s.copy k).mapping t.row t.first t.length

/-- The zone test of R89 (a): the strip's zone meets no zone of a held strip of the copy whose holder is another
spindle (R91). -/
def Copy.zoneFree (c : Copy) (n : SpindleId) (t : Strip) : Bool :=
  c.queue.all fun u =>
    decide (u.state = .planned) || decide (u.holder = some n) || !(zoneOf c t).meets (zoneOf c u)

/-- The tile test of R89 (b): every tile of the strip's footprint is SEALED. -/
def State.tilesSealed (s : State) (k : CopySlot) (t : Strip) : Bool :=
  (s.footprintOf k t).tiles.all s.relief.isSealed

/-- The PLANNED strips of a copy, in queue order. -/
def Copy.plannedStrips (c : Copy) : List Strip := c.queue.filter fun t => decide (t.state = .planned)

/-- The search (R89): the first PLANNED strip that passes both tests. -/
def State.search (s : State) (n : SpindleId) (k : CopySlot) : Option Strip :=
  (s.copy k).plannedStrips.find? fun t => (s.copy k).zoneFree n t && s.tilesSealed k t

/-- The first PLANNED strip that failed the tile test only (R93, R94). -/
def State.tileFailure (s : State) (n : SpindleId) (k : CopySlot) : Option Strip :=
  (s.copy k).plannedStrips.find? fun t => (s.copy k).zoneFree n t && !s.tilesSealed k t

/-- The record of a strip issued to spindle n (R92 steps 1 and 4, R75, R76, R122). -/
def Strip.issuedTo (n : SpindleId) (fp : Footprint) (leaseTime : Nat) (t : Strip) : Strip :=
  { t with state := .issued, holder := some n, issue := t.issue + 1#8, footprint := some fp,
           lease := some { remaining := leaseTime, running := true }, underMerge := false }

/-- The key of a strip's next issue (R75). -/
def Strip.nextKey (t : Strip) (k : CopySlot) : StripKey := { copy := k, index := t.index, issue := t.issue + 1#8 }

/-- The issue of a found strip (R92), without the grant test that a strip becoming AWAITING sets off (R105). -/
def State.issueStrip (s : State) (n : SpindleId) (k : CopySlot) (t : Strip) : State :=
  let fp := s.footprintOf k t
  let leaseTime := (s.copy k).leaseTime
  let s1 := s.modifyCopy k fun c => c.updateStrip t.index (Strip.issuedTo n fp leaseTime)
  let s2 := s1.setRelief (s1.relief.adjustDependents fp (· + 1))
  s2.modifySpindle n fun sp => { sp with issued := sp.issued ++ [{ key := t.nextKey k, status := .awaiting }] }

/-- The issue of a strip to a TAKE STRIP (R92) and the grant test it sets off (R105). No other work comes with it, so the
grant follows at once (log 7); the grant that an evaluation's issue sets off is a piece of its own (`State.setsOff`). -/
def State.issue (s : State) (n : SpindleId) (k : CopySlot) (t : Strip) : State := (s.issueStrip n k t).grantTest

/-- The wanted tile offered (R22, R94): a key that differs from the current one is taken and DEMAND latched. -/
def State.offerWanted (s : State) (key : TileKey) : State :=
  if s.relief.wanted = some key then s
  else (s.setRelief { s.relief with wanted := some key }).latchScan .demand

/-- The hold of a WAIT(SCAN_BEHIND) answer (R95). -/
def State.scanHold (s : State) (n : SpindleId) (waitHold : Nat) : State :=
  if waitHold = 0 then s
  else
    let sp := s.spindle n
    s.setHold n (max sp.holdRemaining waitHold) (if sp.holdRemaining = 0 then .scan else sp.holdOrigin)

/-- The conditions of auto-prefetch (R97), giving the copy to search: threshold on, exactly one held strip, that strip
ISSUED and COMPLETE, unread level at or below the threshold, no active hold, bound to a CUTTING copy. -/
def State.prefetchCopy (s : State) (n : SpindleId) : Option CopySlot :=
  let sp := s.spindle n
  match sp.issued, sp.bound with
  | [h], some k =>
    if 1 ≤ sp.threshold ∧ s.heldIn h .issued = true ∧ h.status = .complete ∧ sp.unread ≤ sp.threshold
        ∧ sp.holdRemaining = 0 ∧ (s.copy k).state = .cutting then some k
    else none
  | _, _ => none

/-- The strip an evaluation of auto-prefetch issues, and its copy: the one the search finds where the conditions hold
(R97). -/
def State.prefetched (s : State) (n : SpindleId) : Option (CopySlot × Strip) :=
  match s.prefetchCopy n with
  | none => none
  | some k =>
    match s.search n k with
    | none => none
    | some t => some (k, t)

/-- The evaluation of auto-prefetch for one spindle (R97). -/
def State.autoPrefetch (s : State) (n : SpindleId) : State :=
  match s.prefetched n with
  | none => s
  | some (k, t) => s.issueStrip n k t

/-! ## Reports -/

/-- What a report's key and count come to (R138). -/
inductive ReportCase where
  | badArg
  | held (t : Strip) (status : CompStatus)
  | stale (d : Departed)
  | notHeld
deriving DecidableEq, Repr

/-- The key a report names; none when its slot or index is out of range (R138 case 1). -/
def Report.key? (r : Report) : Option StripKey :=
  match slotOf r.slot with
  | some k => if r.index.toNat ≤ 4095 then some { copy := k, index := r.index.toNat, issue := r.issue } else none
  | none => none

/-- The newest entry of a departed list with a key (R139). -/
def Spindle.departedOf (sp : Spindle) (key : StripKey) : Option Departed :=
  sp.departed.reverse.find? fun d => decide (d.key = key)

/-- Cases 5 to 7 of R138: the departed list, where the spindle is bound to the copy. -/
def State.departedCase (s : State) (n : SpindleId) (key : StripKey) (count : Nat) : ReportCase :=
  match (s.spindle n).departedOf key with
  | some d =>
    if (s.spindle n).bound = some key.copy then
      if count = d.geometry.length then .stale d else .badArg
    else .notHeld
  | none => .notHeld

/-- The case of a report (R138), in the order of its table. -/
def State.reportCase (s : State) (n : SpindleId) (r : Report) : ReportCase :=
  match r.key? with
  | none => .badArg
  | some key =>
    if r.floors.length < 1 ∨ 256 < r.floors.length then .badArg
    else
      match (s.spindle n).heldOf key, s.strip? key with
      | some h, some t => if r.floors.length = t.length then .held t h.status else .badArg
      | _, _ => s.departedCase n key r.floors.length

/-- The merge record a taken report sets up (R140, R141, R148). -/
def Report.merge (r : Report) (kind : MergeKind) (key : StripKey) (g : Geometry) (checked : Bool)
    (targets : List Entry) : Merge where
  kind := kind
  key := key
  geometry := g
  checked := checked
  targets := targets
  floors := r.floors.map rangedFloor
  ranged := (r.floors.filter fun d => decide (Config.maxDepth < d.toNat)).length
  done := 0
  deepened := 0
  overcut := 0
  shortfall := 0
  spoil := 0
  answers := true

/-- The lease of a reported ISSUED strip STOPPED (R124) and the strip marked as under merge (R140). -/
def Strip.underReport (t : Strip) : Strip :=
  { t with underMerge := true, lease := t.lease.map fun l => { l with running := false } }

/-- A report decided (R138): refused, or its merge started (R140). The port stays WORKING on a merge (R158). -/
def State.decideReport (s : State) (n : SpindleId) (r : Report) : State :=
  match s.reportCase n r with
  | .badArg => s.answer (.spindle n) .badArg []
  | .notHeld => s.answer (.spindle n) .notHeld []
  | .held t status =>
    match r.key? with
    | none => s
    | some key =>
      let kind := match t.state with
        | .issued => MergeKind.heldIssued
        | .fenced => MergeKind.heldFenced
        | .planned => MergeKind.heldFenced
      let checked := decide (status = .complete)
      let targets := if checked then (s.spindle n).queue.filter fun e => decide (e.key = key) else []
      (s.modifySpindle n fun sp => { sp with merge := some (r.merge kind key t.geometry checked targets) }).updateStrip
        key Strip.underReport
  | .stale d =>
    s.modifySpindle n fun sp => { sp with merge := some (r.merge .stale d.key d.geometry false []) }

/-- The report kept waiting behind an orphaned merge decided (R152). -/
def State.decideWaiting (s : State) (n : SpindleId) : State :=
  match (s.spindle n).waiting with
  | none => s
  | some r => (s.modifySpindle n fun sp => { sp with waiting := none }).decideReport n r

/-! ## Hand-on work -/

/-- One piece of hand-on work: an auto-prefetch evaluation, a grant test, the decision of a waiting report. -/
inductive Chore where
  | evaluate (n : SpindleId)
  | grant
  | report (n : SpindleId)
deriving DecidableEq, Repr

/-- One piece of hand-on work done. -/
def State.perform (s : State) : Chore → State
  | .evaluate n => s.autoPrefetch n
  | .grant => s.grantTest
  | .report n => s.decideWaiting n

/-- x put at place i of a list, or at its end. -/
def insertAt {α : Type} (i : Nat) (x : α) (l : List α) : List α :=
  match l with
  | [] => [x]
  | y :: rest =>
    match i with
    | 0 => x :: y :: rest
    | j + 1 => y :: insertAt j x rest
termination_by structural l

/-- The permutation of a list a number selects; every permutation is selected by some number. -/
def permute {α : Type} : Nat → List α → List α
  | _, [] => []
  | c, x :: l => insertAt (c % (l.length + 1)) x (permute (c / (l.length + 1)) l)

/-- What a piece of work, done on this state, sets off: an evaluation that issues a strip makes it AWAITING, and a grant
is tested (R105). R106 lets that grant come before or after the other work of the event (log 30). -/
def State.setsOff (s : State) : Chore → List Chore
  | .evaluate n =>
    match s.prefetched n with
    | some _ => [.grant]
    | none => []
  | .grant => []
  | .report _ => []

/-- The piece at place i of x followed by l, or the last one, and the pieces that remain. -/
def pick {α : Type} (i : Nat) (x : α) (l : List α) : α × List α :=
  match l with
  | [] => (x, [])
  | y :: rest =>
    match i with
    | 0 => (x, y :: rest)
    | j + 1 => ((pick j y rest).1, x :: (pick j y rest).2)
termination_by structural l

/-- Work done piece by piece, the number c choosing the next piece among those still to be done, which what a piece sets
off joins. `fuel` bounds the number of pieces. -/
def workThrough : Nat → Nat → State → List Chore → State
  | 0, _, s, _ => s
  | _ + 1, _, s, [] => s
  | fuel + 1, c, s, x :: l =>
    let next := pick (c % (l.length + 1)) x l
    workThrough fuel (c / (l.length + 1)) (s.perform next.1) (next.2 ++ s.setsOff next.1)

/-- The hand-on work of one event, in an order the manual leaves open (R99, R106; log 7, log 20, log 30): each piece is
an event of its own and sees what those before it have done. A piece sets off at most one grant, which sets off nothing,
so twice the number of pieces bounds the work. -/
def State.handOn (s : State) (ts : List Chore) : State :=
  workThrough (2 * ts.length) (Config.handOnOrder s.choices) { s with choices := s.choices + 1 } ts

/-- The work that a withdrawal or the completion of a merge hands on (R98, R109, R145): an evaluation for every spindle
bound to the copy, and a grant test where a computation was abandoned. -/
def State.leavingChores (s : State) (k : CopySlot) (abandoned : Bool) : List Chore :=
  (s.boundTo k).map Chore.evaluate ++ (if abandoned then [Chore.grant] else [])

end Sys2Proof.Machine
end

