-- ==== Sys2Proof/Machine/Copies.lean ====
section
/-! DEFINITION. Copies and cut maps: defining, passes, closing, binding, readback (chapter 2), and the withdrawal of SET PASS (R116). -/

namespace Sys2Proof.Machine

/-- A Plan Port request that carries a copy slot: a number outside 0 to 5 is refused before any other check (R26). -/
def State.onCopy (s : State) (slot : Byte) (f : CopySlot → State → State) : State :=
  s.request .plan fun s1 =>
    match slotOf slot with
    | none => s1.answer .plan .badArg []
    | some k => f k s1

/-! ## Defining a copy -/

/-- The step of a scale (R26). -/
def stepOf (k : Nat) : Nat := 1048576 / k

/-- The extent check of R29. -/
def extentFits (r : Relief) (ox oy w h sigma : Nat) : Bool :=
  decide (ox * 1024 + (w - 1) * sigma ≤ (r.mw - 1) * 1024)
    && decide (oy * 1024 + (h - 1) * sigma ≤ (r.mh - 1) * 1024)

/-- The record a taken DEFINE COPY fills, its tuning values brought into range (R26, R29, R30), the p and a kept for
roughing those of the pass it starts with (log 29). The cut map lists no
cell: every floor reads f0 when the copy leaves CLEARING (R31, log 11). -/
def definedCopy (a : CopyArgs) : Copy :=
  let limit := min Config.maxDepth a.limit.toNat
  { state := .clearing
    w := a.w.toNat
    h := a.h.toNat
    mapping := { ox := a.ox.toNat, oy := a.oy.toNat, sigma := stepOf a.k.toNat, k := a.k.toNat,
                 z0 := a.z0.toNat, limit := limit }
    f0 := min limit a.f0.toNat
    margin := min 31 a.margin.toNat
    tolerance := min 255 a.tolerance.toNat
    leaseTime := clampInto 100 60000 a.leaseTime.toNat
    waitHold := a.waitHold.toNat
    stopOnSpoil := flagOf a.stopOnSpoil
    pass := { kind := .finish, stepDown := 1, allowance := 0 }
    kept := { stepDown := 1, allowance := 0 }
    planClosed := false
    counters := Counters.zero
    floors := []
    queue := [] }

/-- Whether a tuning value was changed (R29). -/
def wasClamped (a : CopyArgs) (c : Copy) : Bool :=
  decide (c.mapping.limit ≠ a.limit.toNat) || decide (c.f0 ≠ a.f0.toNat) || decide (c.margin ≠ a.margin.toNat)
    || decide (c.tolerance ≠ a.tolerance.toNat) || decide (c.leaseTime ≠ a.leaseTime.toNat)

/-- The values a copy was defined with, as its record holds them, in DEFINE COPY's order (R29, R169; log 14). -/
def copyValues (c : Copy) : List Byte :=
  u16 c.mapping.ox ++ u16 c.mapping.oy ++ u16 c.w ++ u16 c.h ++ u16 c.mapping.k ++ u16 c.mapping.z0
    ++ u24 c.mapping.limit ++ u24 c.f0 ++ u8 c.margin ++ u16 c.tolerance ++ u16 c.leaseTime ++ u16 c.waitHold
    ++ flag c.stopOnSpoil

/-- DEFINE COPY (R28 to R30), its checks in order. The answer does not wait for the clear. R30 gives its items, but no
rule gives σ a width: the model sends it in two bytes (DEDUCED, log 13). -/
def execDefineCopy (a : CopyArgs) (s : State) : Result :=
  .next <| s.onCopy a.slot fun k s1 =>
    if s1.relief.defined = false then s1.answer .plan .badState []
    else if (s1.copy k).state ≠ .free then s1.answer .plan .badState []
    else if a.k.toNat < 256 ∨ 4096 < a.k.toNat ∨ a.w.toNat < 1 ∨ 2048 < a.w.toNat ∨ a.h.toNat < 1
        ∨ 2048 < a.h.toNat then s1.answer .plan .badArg []
    else if extentFits s1.relief a.ox.toNat a.oy.toNat a.w.toNat a.h.toNat (stepOf a.k.toNat) = false then
      s1.answer .plan .extent []
    else
      let c := definedCopy a
      (s1.setCopy k c).answer .plan (if wasClamped a c then .clamped else .ok)
        (u8 k.val ++ u16 c.mapping.sigma ++ copyValues c)

/-- CLEAR_COMPLETION (R31): the last cell of the cut map holds f0. A slot that is not CLEARING has no clear to end
(log 2). -/
def execClearCompletion (k : CopySlot) (s : State) : Result :=
  .next <|
    if (s.copy k).state = .clearing then
      (s.modifyCopy k fun c => { c with state := .ready }).latchPlan .clearDone
    else s

/-! ## Passes -/

/-- Whether no entry of a strip has been drawn: the read position lies at or before its first entry (R116). -/
def Spindle.undrawn (sp : Spindle) (key : StripKey) : Bool :=
  (sp.queue.take sp.readPos).all fun e => decide (e.key ≠ key)

/-- Whether SET PASS withdraws a strip (R34, R116): ISSUED, not under merge, nothing drawn. -/
def State.withdrawable (s : State) (k : CopySlot) (t : Strip) : Bool :=
  decide (t.state = .issued) && !t.underMerge &&
    match t.holder with
    | some n => (s.spindle n).undrawn (t.keyIn k)
    | none => false

/-- One strip withdrawn (R116): it leaves, stays in its place as PLANNED, and WITHDRAWN is latched on its holder's
port. -/
def State.withdraw (s : State) (k : CopySlot) (t : Strip) : State :=
  match t.holder with
  | some n => (s.leave k t true).latchSpindle n .withdrawn
  | none => s

/-- Every strip of a copy that SET PASS withdraws, withdrawn, with the work that follows (R116). The test is made on the
state the request found; the order in which the strips of one request leave is open and shows only in the departed list
of a holder that loses two (R139; log 7). -/
def State.withdrawAll (s : State) (k : CopySlot) : State :=
  let ts := (s.copy k).queue.filter (s.withdrawable k)
  if ts = [] then s
  else
    ((permute (Config.handOnOrder s.choices) ts).foldl (fun (a : State) t => a.withdraw k t)
      { s with choices := s.choices + 1 }).handOn
        (s.leavingChores k (ts.any fun t => s.computes (t.keyIn k)))

/-- The copy after a SET PASS that is taken: the kind, p and a it carries are written into the record, whatever the kind
(R34); a FINISH keeps the p and a of roughing, and a later ROUGH finds them as they were and writes its own (R58). Both
rules hold of a record that has the two side by side (DEDUCED, log 29). -/
def Copy.setPass (c : Copy) (pass : Pass) : Copy :=
  { c with
    pass := pass
    kept := match pass.kind with
      | .rough => { stepDown := pass.stepDown, allowance := pass.allowance }
      | .finish => c.kept }

/-- SET PASS (R34, R58): the slot, then the state, then the kind (log 12). "The values now held" that its answer carries
are sent as kind, p and a, without the slot (DEDUCED, log 14). -/
def execSetPass (slot kind : Byte) (stepDown allowance : Word) (s : State) : Result :=
  .next <| s.onCopy slot fun k s1 =>
    let st := (s1.copy k).state
    if st ≠ .ready ∧ st ≠ .paused then s1.answer .plan .badState []
    else
      match kindOf kind with
      | none => s1.answer .plan .badArg []
      | some kd =>
        let pass : Pass := { kind := kd, stepDown := clampInto 1 4095 stepDown.toNat,
                             allowance := min 4095 allowance.toNat }
        let changed := decide (pass.stepDown ≠ stepDown.toNat) || decide (pass.allowance ≠ allowance.toNat)
        let s2 := (s1.modifyCopy k fun c => c.setPass pass).answer .plan
          (if changed then .clamped else .ok)
          (passKindBytes kd ++ u16 pass.stepDown ++ u16 pass.allowance)
        if st = .paused then s2.withdrawAll k else s2

/-- START PASS (R36). -/
def execStartPass (slot : Byte) (s : State) : Result :=
  .next <| s.onCopy slot fun k s1 =>
    let c := s1.copy k
    if c.state ≠ .ready then s1.answer .plan .badState []
    else if c.queue = [] then s1.answer .plan .empty []
    else (s1.modifyCopy k fun c => { c with state := .cutting }).answer .plan .ok []

/-- PAUSE COPY (R37). -/
def execPauseCopy (slot : Byte) (s : State) : Result :=
  .next <| s.onCopy slot fun k s1 =>
    if (s1.copy k).state ≠ .cutting then s1.answer .plan .badState []
    else (s1.modifyCopy k fun c => { c with state := .paused }).answer .plan .ok []

/-- RESUME COPY (R38). -/
def execResumeCopy (slot : Byte) (s : State) : Result :=
  .next <| s.onCopy slot fun k s1 =>
    let c := s1.copy k
    if c.state ≠ .paused then s1.answer .plan .badState []
    else if c.planClosed = true ∧ c.queue = [] then (s1.completePass k).answer .plan .ok []
    else
      let s2 := (s1.modifyCopy k fun c => { c with state := .cutting }).answer .plan .ok []
      s2.handOn ((s2.boundTo k).map Chore.evaluate)

/-! ## Closing a copy -/

/-- Whether a merge into the copy's cut map is in flight (R39). -/
def State.mergesInto (s : State) (k : CopySlot) : Bool :=
  s.spindles.toList.any fun sp =>
    match sp.merge with
    | some m => decide (m.key.copy = k)
    | none => false

/-- What a spindle loses when copy k is freed beside its strips: the binding (R40), the departed entries (R139). -/
def Spindle.forgetCopy (k : CopySlot) (sp : Spindle) : Spindle :=
  { sp with
    bound := if sp.bound = some k then none else sp.bound
    departed := sp.departed.filter fun d => decide (d.key.copy ≠ k) }

/-- The copy freed (R40): each FENCED strip leaves, every strip is discarded, the spindles forget the copy. -/
def State.freeCopy (s : State) (k : CopySlot) : State :=
  let held := (s.copy k).queue.filter fun t => decide (t.state ≠ .planned)
  let s1 := held.foldl (fun s t => s.leave k t false) s
  { s1.setCopy k Copy.free with spindles := s1.spindles.map (Spindle.forgetCopy k) }

/-- CLOSE COPY (R39, R40, R32): a computation abandoned by it leaves a grant test (R109). -/
def execCloseCopy (slot : Byte) (s : State) : Result :=
  .next <| s.onCopy slot fun k s1 =>
    let c := s1.copy k
    if c.state = .free then s1.answer .plan .badState []
    else if c.queue.any (fun t => decide (t.state = .issued)) || s1.mergesInto k then s1.answer .plan .held []
    else
      let abandoned := c.queue.any fun t => decide (t.state ≠ .planned) && s1.computes (t.keyIn k)
      let s2 := (s1.freeCopy k).answer .plan .ok []
      if abandoned then s2.grantTest else s2

/-! ## Binding -/

/-- BIND SPINDLE (R41), its checks in order. -/
def execBindSpindle (spindle slot : Byte) (s : State) : Result :=
  .next <| s.request .plan fun s1 =>
    match spindleOf spindle, slotOf slot with
    | some n, some k =>
      if (s1.copy k).state = .free ∨ (s1.copy k).state = .clearing then s1.answer .plan .badState []
      else if s1.issuedStrips n ≠ [] then s1.answer .plan .badState []
      else (s1.modifySpindle n fun sp => { sp with bound := some k }).answer .plan .ok []
    | _, _ => s1.answer .plan .badArg []

/-- The ISSUED strips of a spindle fenced by UNBIND SPINDLE (R42, R127). -/
def State.fenceForUnbind (s : State) (n : SpindleId) : State :=
  let hs := s.issuedStrips n
  if hs = [] then s else ((s.fenceAll n hs).latchSpindle n .fenced).latchPlan .fenced

/-- UNBIND SPINDLE (R42). -/
def execUnbindSpindle (spindle : Byte) (s : State) : Result :=
  .next <| s.request .plan fun s1 =>
    match spindleOf spindle with
    | none => s1.answer .plan .badArg []
    | some n =>
      ((s1.fenceForUnbind n).modifySpindle n fun sp => { sp with bound := none }).answer .plan .ok []

/-! ## Readback -/

/-- READ FLOORS (R44), its checks in order. -/
def execReadFloors (slot : Byte) (cy c0 : Word) (count : Byte) (s : State) : Result :=
  .next <| s.onCopy slot fun k s1 =>
    let c := s1.copy k
    if c.state = .free ∨ c.state = .clearing then s1.answer .plan .badState []
    else if c.h ≤ cy.toNat ∨ count.toNat < 1 ∨ 64 < count.toNat ∨ c.w < c0.toNat + count.toNat then
      s1.answer .plan .badArg []
    else
      s1.answer .plan .ok ((List.range' c0.toNat count.toNat).flatMap fun cx => u24 (c.floor cx cy.toNat))

/-- The six counters (R43). -/
def counterBytes (c : Counters) : List Byte :=
  u16 c.spoil ++ u16 c.overcut ++ u16 c.stale ++ u16 c.stuck ++ u16 c.clamped ++ u16 c.held

/-- A set of spindles: bit n - 1 set for spindle n (R168). -/
def spindleSet (ns : List SpindleId) : List Byte := u8 ((ns.map fun n => 2 ^ n.val).sum)

/-- A copy record as READ COPY shows it: of a FREE slot only the state has meaning, everything else reads 0 (R26,
R45). -/
def Copy.shown (c : Copy) : Copy := if c.state = .free then Copy.free else c

/-- The numbers of PLANNED, ISSUED and FENCED strips of a copy, as READ COPY and READ STRIP show them (R45, R66, R168). -/
def Copy.countItems (c : Copy) : List Byte := u16 (c.count .planned) ++ u16 (c.count .issued) ++ u16 (c.count .fenced)

/-- The items of a READ COPY answer (R45): the state, the fields of R26 in the order of its table, the counters, the
strip counts, the bound spindles. Their order and σ's two bytes are the model's reading (DEDUCED, log 13, log 14). -/
def State.copyItems (s : State) (k : CopySlot) : List Byte :=
  let c := (s.copy k).shown
  copyStateBytes c.state
    ++ u16 c.mapping.ox ++ u16 c.mapping.oy ++ u16 c.w ++ u16 c.h ++ u16 c.mapping.k ++ u16 c.mapping.sigma
    ++ u16 c.mapping.z0 ++ u24 c.mapping.limit ++ u24 c.f0 ++ u8 c.margin ++ u16 c.tolerance ++ u16 c.leaseTime
    ++ u16 c.waitHold ++ flag c.stopOnSpoil ++ passKindBytes c.pass.kind ++ u16 c.pass.stepDown
    ++ u16 c.pass.allowance ++ flag c.planClosed ++ counterBytes c.counters
    ++ c.countItems ++ spindleSet (if c.state = .free then [] else s.boundTo k)

/-- READ COPY (R45): a set zero flag zeroes the counters of a slot in use after they are read. -/
def execReadCopy (slot zero : Byte) (s : State) : Result :=
  .next <| s.onCopy slot fun k s1 =>
    let items := s1.copyItems k
    let s2 := if flagOf zero = true ∧ (s1.copy k).state ≠ .free then
        s1.modifyCopy k fun c => { c with counters := Counters.zero }
      else s1
    s2.answer .plan .ok items

end Sys2Proof.Machine
end

