-- ==== Sys2Proof/Machine/Engine.lean ====
section
/-! DEFINITION. The computation of a cell, and the requests on a target queue (chapter 6). -/

namespace Sys2Proof.Machine

/-! ## COMPUTE_CELL -/

/-- The two counters a computed cell may raise (R61). -/
def Counters.countCell (c : Counters) (ct : CellTarget) : Counters :=
  { c with
    held := raiseCounter c.held (if ct.held then 1 else 0)
    clamped := raiseCounter c.clamped (if ct.clamped then 1 else 0) }

/-- The entry of a computed cell (R59, R107). -/
def entryOf (key : StripKey) (column : Nat) (ct : CellTarget) (first last : Bool) : Entry where
  key := key
  column := column
  target := ct.target
  held := ct.held
  clamped := ct.clamped
  nothing := ct.nothing
  first := first
  last := last

/-- The cell of the computation in flight (R107 steps 1 and 2). -/
def State.computeTarget (s : State) (c : Computation) (row : Nat) : CellTarget :=
  cellTarget s.relief c.mapping c.pass c.nextColumn row ((s.copy c.key.copy).floor c.nextColumn row)

/-- The engine after a cell: on to the next column, or free after the last (R103, R108). -/
def Engine.advance (e : Engine) (c : Computation) (g : Geometry) : Engine :=
  if c.made + 1 < g.length then
    { e with inFlight := some { c with made := c.made + 1, nextColumn := g.column (c.made + 1) } }
  else { e with inFlight := none }

/-- The effects of one cell before the completion's hand-on (R107): counters, entry, STRIP_READY on the first entry,
the engine's place. -/
def State.placeCell (s : State) (c : Computation) (g : Geometry) : State :=
  let ct := s.computeTarget c g.row
  let entry := entryOf c.key c.nextColumn ct (decide (c.made = 0)) (decide (g.length ≤ c.made + 1))
  let s1 := s.modifyCopy c.key.copy fun cp => { cp with counters := cp.counters.countCell ct }
  let s2 := s1.modifySpindle c.holder fun sp => { sp with queue := sp.queue ++ [entry] }
  let s3 := if c.made = 0 then s2.latchSpindle c.holder .stripReady else s2
  s3.setEngine (s3.engine.advance c g)

/-- The completion (R108): COMPLETE, and the evaluation and grant in either order (R106). -/
def State.completeComputation (s : State) (c : Computation) : State :=
  (s.modifySpindle c.holder fun sp => sp.setStatus c.key fun _ => .complete).handOn
    [.evaluate c.holder, .grant]

/-- COMPUTE_CELL (R107, R108): with the engine free there is no such event (log 2). -/
def execComputeCell (s : State) : Result :=
  .next <|
    match s.engine.inFlight with
    | none => s
    | some c =>
      match s.strip? c.key with
      | none => s
      | some t =>
        let s1 := s.placeCell c t.geometry
        if t.length ≤ c.made + 1 then s1.completeComputation c else s1

/-! ## DRAW TARGETS -/

/-- Whether an entry belongs to a FENCED strip (R112). -/
def State.entryFenced (s : State) (e : Entry) : Bool :=
  match s.strip? e.key with
  | some t => decide (t.state = .fenced)
  | none => false

/-- The entries a DRAW of count c returns (R112): from the read position, stopping before a FENCED strip's. -/
def State.drawn (s : State) (n : SpindleId) (c : Nat) : List Entry :=
  (((s.spindle n).queue.drop (s.spindle n).readPos).take c).takeWhile fun e => !s.entryFenced e

/-- The held strips of a spindle of which an entry was drawn (R112, R123). -/
def State.drawnStrips (s : State) (n : SpindleId) (es : List Entry) : List Held :=
  (s.spindle n).issued.filter fun h => es.any fun e => decide (e.key = h.key)

/-- DRAW TARGETS (R112): LATE only when nothing is returned for a FENCED strip's entry. -/
def execDrawTargets (n : SpindleId) (count : Byte) (s : State) : Result :=
  .next <| s.request (.spindle n) fun s1 =>
    if count.toNat < 1 ∨ 32 < count.toNat then s1.answer (.spindle n) .badArg []
    else
      let es := s1.drawn n count.toNat
      let s2 := s1.modifySpindle n fun sp => { sp with readPos := sp.readPos + es.length }
      let code := if es = [] ∧ 0 < (s1.spindle n).unread then AnswerCode.late else .ok
      let s3 := s2.answer (.spindle n) code (counted entryBytes es ++ u16 (s2.spindle n).unread)
      if es = [] then s3 else (s3.restartLeases (s3.drawnStrips n es)).handOn [.evaluate n]

/-! ## REWIND STRIP and RENEW -/

/-- REWIND STRIP (R114); its LATE answer carries the same items (R168; log 15). -/
def execRewindStrip (n : SpindleId) (s : State) : Result :=
  .next <| s.request (.spindle n) fun s1 =>
    match (s1.spindle n).issued with
    | [] => s1.answer (.spindle n) .notHeld []
    | h :: _ =>
      if s1.heldIn h .issued then
        let s2 := (s1.modifySpindle n fun sp => { sp with readPos := 0 }).restartLeases [h]
        s2.answer (.spindle n) .ok (keyBytes h.key ++ u16 (s2.spindle n).unread)
      else s1.answer (.spindle n) .late (keyBytes h.key ++ u16 (s1.spindle n).unread)

/-- RENEW (R115): every lease of an ISSUED strip the spindle holds restarted. -/
def execRenew (n : SpindleId) (s : State) : Result :=
  .next <| s.request (.spindle n) fun s1 =>
    let hs := s1.issuedStrips n
    (s1.restartLeases hs).answer (.spindle n) .ok (u8 hs.length)

end Sys2Proof.Machine
end

