-- ==== Sys2Proof/Machine/Fences.lean ====
section
/-! DEFINITION. RELEASE FENCE and HOLD SPINDLE (chapter 7). -/

namespace Sys2Proof.Machine

/-- RELEASE FENCE with REQUEUE (R130): out of its holder's hands, with the grant that may follow; then to the tail as
PLANNED with the next issue number. -/
def State.requeueFenced (s : State) (k : CopySlot) (t : Strip) : State :=
  (s.leaveAndGrant k t).modifyCopy k fun c => c.requeueStrip t.index fun u => { u with issue := u.issue + 1#8 }

/-- RELEASE FENCE with DISCARD (R131): the effects of R130, then removed, then the pass completion test. -/
def State.discardFenced (s : State) (k : CopySlot) (t : Strip) : State :=
  ((s.leaveAndGrant k t).modifyCopy k fun c => c.removeStrip t.index).testPass k

/-- The items of a RELEASE FENCE answer (R129). -/
def releaseItems (key : StripKey) (action : FenceAction) (live : Nat) : List Byte :=
  match action with
  | .requeue => keyBytes key ++ u8 0 ++ u16 live ++ [key.issue + 1#8]
  | .discard => keyBytes key ++ u8 1 ++ u16 live

/-- A FENCED strip released (R130, R131): its effects, the answer, then the evaluations it hands on. -/
def State.releaseStrip (s : State) (k : CopySlot) (t : Strip) (action : FenceAction) : State :=
  let s1 := match action with
    | .requeue => s.requeueFenced k t
    | .discard => s.discardFenced k t
  let s2 := s1.answer .plan .ok (releaseItems (t.keyIn k) action (s1.copy k).queue.length)
  s2.handOn ((s2.boundTo k).map Chore.evaluate)

/-- RELEASE FENCE (R129), its checks in order. -/
def execReleaseFence (slot : Byte) (index : Word) (action : Byte) (s : State) : Result :=
  .next <| s.request .plan fun s1 =>
    match slotOf slot, actionOf action with
    | some k, some act =>
      if 4095 < index.toNat then s1.answer .plan .badArg []
      else
        let c := s1.copy k
        if c.state = .free ∨ c.state = .clearing then s1.answer .plan .badState []
        else
          match c.strip? index.toNat with
          | none => s1.answer .plan .badState []
          | some t =>
            if t.state ≠ .fenced then s1.answer .plan .badState []
            else if t.underMerge then s1.answer .plan .held []
            else s1.releaseStrip k t act
    | _, _ => s1.answer .plan .badArg []

/-- HOLD SPINDLE (R134): n ms of PLAN origin, or with 0 the end of an active hold (R135). -/
def execHoldSpindle (spindle : Byte) (time : Word) (s : State) : Result :=
  .next <| s.request .plan fun s1 =>
    match spindleOf spindle with
    | none => s1.answer .plan .badArg []
    | some n =>
      if 0 < time.toNat then
        let s2 := s1.setHold n time.toNat .plan
        s2.answer .plan .ok (holdBytes (s2.spindle n))
      else if 0 < (s1.spindle n).holdRemaining then
        let s2 := s1.endHold n
        (s2.answer .plan .ok (holdBytes (s2.spindle n))).handOn [.evaluate n]
      else s1.answer .plan .ok (holdBytes (s1.spindle n))

end Sys2Proof.Machine
end

