-- ==== Sys2Proof/Machine/Frames.lean ====
section
/-! DEFINITION. The commands of every port: FETCH, status poll, STATUS, bad frames, CLEAR EVENTS, SET ATTENTION (chapters 9 and 10). -/

namespace Sys2Proof.Machine

/-! ## FETCH and the status poll -/

/-- The envelope a FETCH clocks out (R159). -/
def fetchEnvelope (x : Port) (crcGood : Bool) : Envelope :=
  if crcGood then
    match x.state, x.slot with
    | .answered, some e => e
    | .working, _ => ⟨.pending, []⟩
    | _, _ => ⟨.none, []⟩
  else ⟨.badCrc, []⟩

/-- Whether a FETCH began to deliver a held answer (R160). -/
def deliversAnswer (x : Port) (crcGood : Bool) : Bool :=
  crcGood && decide (x.state = .answered) && x.slot.isSome

/-- The slot settled at the rise of a FETCH that began to deliver an answer of `size` envelope bytes, the frame having
`clocked` whole bytes (R160). A FETCH that ended with its third byte has clocked out no envelope byte, but it was taken
and began to deliver (R159), so it too sets the delivered mark (DEDUCED, log 31). -/
def settleFetch (size clocked : Nat) (x : Port) : Port :=
  if 3 + size ≤ clocked then { x with state := .idle, slot := none, delivered := false }
  else { x with delivered := true }

/-- A frame of fewer than three whole bytes (R154): its status byte is sampled; whole, it ends. -/
def State.poll (s : State) (p : PortId) : PollPhase → State
  | .whole => if s.frameCounts p then s.endFrame p [] else s.dropFrame p
  | .begun =>
    if s.frameCounts p then
      s.modifyPort p fun x => { x with frame := .open (s.fallStatus p), out := some ⟨s.fallStatus p, []⟩ }
    else s.modifyPort p fun x => { x with frame := .dead, out := if s.inReset then none else x.out }

/-- STATUS_POLL (R154). -/
def execStatusPoll (p : PortId) (phase : PollPhase) (s : State) : Result := .next (s.poll p phase)

/-- FETCH (R159, R160): taken in any port state. A frame that ends before its third byte is a status poll. -/
def execFetch (p : PortId) (crcGood : Bool) (clocked : Nat) (s : State) : Result :=
  .next <|
    if clocked < 3 then s.poll p .whole
    else if s.frameCounts p then
      let bytes := envelopeBytes (fetchEnvelope (s.port p) crcGood)
      let s1 := s.endFrame p (bytes.take (clocked - 3))
      if deliversAnswer (s.port p) crcGood then s1.modifyPort p (settleFetch bytes.length clocked) else s1
    else s.dropFrame p

/-! ## STATUS (R162) -/

/-- The first item of every STATUS answer: latches, mask, term (R162, R170, R173). -/
def portItems (x : Port) : List Byte := word2 x.latches ++ word2 x.mask ++ termBytes x.term

/-- The engine's item (R118): free, or holder, key and entries made; then the grant pointer. -/
def engineItems (e : Engine) : List Byte :=
  optional (fun c => u8 (spindleNumber c.holder) ++ keyBytes c.key ++ u16 c.made) e.inFlight
    ++ u8 (spindleNumber e.pointer)

/-- A merge in flight (R140). -/
def mergeItem (m : Merge) : List Byte := keyBytes m.key ++ mergeKindBytes m.kind ++ u16 m.done

/-- Full flags of a spindle's boxes, ORDER then NOTE (R175). -/
def boxItems (sp : Spindle) : List Byte := flag sp.order.full ++ flag sp.note.full

/-- The Plan Port's items (R162). -/
def State.planItems (s : State) : List Byte :=
  u16 s.relief.mw ++ u16 s.relief.mh ++ u16 s.relief.sealedCount
    ++ s.copies.toList.flatMap (fun c => copyStateBytes c.state)
    ++ engineItems s.engine
    ++ s.spindles.toList.flatMap holdBytes
    ++ s.spindles.toList.flatMap (fun sp => optional mergeItem sp.merge)
    ++ s.spindles.toList.flatMap boxItems

/-- A staging slot in the Scan Port's STATUS answer (R23). -/
def slotItem (x : Slot) : List Byte :=
  tileKeyBytes x.key ++ slotModeBytes x.mode ++ u16 x.written ++ flag x.sealing

/-- The Scan Port's items (R23, R162). -/
def State.scanItems (s : State) : List Byte :=
  optional tileKeyBytes s.relief.wanted ++ s.staging.toList.flatMap (optional slotItem)

/-- A held strip in a Spindle Port's STATUS answer (R101): nothing of a strip its copy does not hold (log 19). -/
def State.heldItem (s : State) (h : Held) : List Byte :=
  match s.strip? h.key with
  | some t =>
    keyBytes h.key ++ geometryBytes t.geometry ++ stripStateBytes t.state
      ++ u16 ((t.lease.map Lease.remaining).getD 0) ++ flag (decide (h.status = .complete))
  | none => keyBytes h.key

/-- The computation status of a held strip, with the entries made while COMPUTING (R118). -/
def State.statusItem (s : State) (h : Held) : List Byte :=
  compStatusBytes h.status ++
    match h.status, s.engine.inFlight with
    | .computing, some c => u16 c.made
    | .computing, none => u16 0
    | _, _ => []

/-- An entry of a departed list (R139). -/
def departedItem (d : Departed) : List Byte := keyBytes d.key ++ geometryBytes d.geometry

/-- A Spindle Port's items (R101, R118, R139, R162). -/
def State.spindleItems (s : State) (n : SpindleId) : List Byte :=
  let sp := s.spindle n
  optional (fun k : CopySlot => u8 k.val) sp.bound
    ++ counted s.heldItem sp.issued
    ++ u16 sp.threshold ++ holdBytes sp
    ++ u16 sp.queue.length ++ u16 sp.readPos ++ u16 sp.unread
    ++ sp.issued.flatMap s.statusItem
    ++ counted departedItem sp.departed
    ++ boxItems sp

/-- The port's own items of a STATUS answer (R162). -/
def State.statusItems (s : State) : PortId → List Byte
  | .plan => s.planItems
  | .scan => s.scanItems
  | .spindle n => s.spindleItems n

/-- STATUS (R162): OK at once, everything read as one event. -/
def execStatus (p : PortId) (s : State) : Result :=
  .next <| s.request p fun s1 => s1.answer p .ok (portItems (s1.port p) ++ s1.statusItems p)

/-! ## Bad frames, events, attention -/

/-- The answer to a bad frame (R157). -/
def flawCode : FrameFlaw → AnswerCode
  | .crc _ => .badCrc
  | .code => .badFrame
  | .length => .badFrame

/-- Whether a bad frame is a PUT SAMPLES frame failing its CRC on the Scan Port (R11, R157). -/
def losesBlock (p : PortId) : FrameFlaw → Bool
  | .crc first => decide (p = .scan ∧ first = 0x21#8)
  | .code => false
  | .length => false

/-- BAD_FRAME (R157, R11): answered with no data; nothing else changes but BLOCK_BAD for a lost sample block. -/
def execBadFrame (p : PortId) (flaw : FrameFlaw) (s : State) : Result :=
  .next <| s.request p fun s1 =>
    let s2 := if losesBlock p flaw then s1.latchScan .blockBad else s1
    s2.answer p (flawCode flaw) []

/-- The latches of a port after a clear (R171). -/
def clearedLatches (p : PortId) (x : Port) (mask : Word) : Word := x.latches &&& ~~~ (mask &&& namedBits p)

/-- CLEAR EVENTS (R171): the answer carries the latches before and after; the line is evaluated afresh. -/
def execClearEvents (p : PortId) (mask : Word) (s : State) : Result :=
  .next <| s.request p fun s1 =>
    let before := (s1.port p).latches
    let after := clearedLatches p (s1.port p) mask
    (s1.modifyPort p fun x => refreshLine s1.inReset { x with latches := after }).answer p .ok
      (word2 before ++ word2 after)

/-- SET ATTENTION (R173): a term of another value is refused; the mask is stored without bit 0 and the bits that name
no latch. -/
def execSetAttention (p : PortId) (mask : Word) (term : Byte) (s : State) : Result :=
  .next <| s.request p fun s1 =>
    match termOf term with
    | none => s1.answer p .badArg []
    | some t =>
      let stored := mask &&& defaultMask p
      (s1.modifyPort p fun x => refreshLine s1.inReset { x with mask := stored, term := t }).answer p .ok
        (word2 stored ++ termBytes t)

end Sys2Proof.Machine
end

