-- ==== Sys2Proof/Machine/Intake.lean ====
section
/-! DEFINITION. The relief and its tiles: OPEN TILE to DROP TILE, the preload and the seal, DEFINE RELIEF, READ RELIEF (chapter 1). -/

namespace Sys2Proof.Machine

/-- The tile key a request carries. -/
def tileKeyOf (tx ty : Byte) : TileKey := ⟨tx.toNat, ty.toNat⟩

/-! ## Opening a tile -/

/-- The slot a taken OPEN TILE claims (R8, R9): no mark set; a RESCAN open has its preload in flight. -/
def openedSlot (key : TileKey) (mode : SlotMode) : Slot where
  key := key
  mode := mode
  samples := []
  sealing := false
  preloading := decide (mode = .rescan)

/-- A slot claimed and the tile put into its new state (R8, R9). -/
def State.claim (s : State) (i : Fin 4) (key : TileKey) (mode : SlotMode) (st : TileState) : State :=
  (s.setRelief (s.relief.modifyTile key fun t => { t with state := st })).setStaging i
    (some (openedSlot key mode))

/-- OPEN TILE (R8, R9), its checks in order. A FIRST open is answered at once; a RESCAN open keeps the port WORKING until
its preload completes. -/
def execOpenTile (tx ty : Byte) (s : State) : Result :=
  .next <| s.request .scan fun s1 =>
    let key := tileKeyOf tx ty
    if s1.relief.defined = false then s1.answer .scan .badState []
    else
      match s1.relief.tile? key with
      | none => s1.answer .scan .badArg []
      | some t =>
        match t.state with
        | .staging => s1.answer .scan .badState []
        | .rescanning => s1.answer .scan .badState []
        | .absent =>
          match s1.freeSlot with
          | none => s1.answer .scan .noSlot []
          | some i => (s1.claim i key .first .staging).answer .scan .ok (tileKeyBytes key ++ slotModeBytes .first)
        | .sealed =>
          match s1.freeSlot with
          | none => s1.answer .scan .noSlot []
          | some i =>
            if 0 < t.dependents then s1.answer .scan .dependent []
            else s1.claim i key .rescan .rescanning

/-- The slot whose RESCAN preload is in flight (R9). -/
def State.preloadingSlot (s : State) : Option (Fin 4 × Slot) :=
  allFour.findSome? fun i =>
    match s.staging.get i with
    | some x => if x.preloading then some (i, x) else none
    | none => none

/-- Every offset of a tile with its sample in a buffer: what a preload puts into a slot, every mark set (R9). -/
def allSamples (buffer : Cells Word) : Cells Word :=
  (List.range 1024).map fun o => (o, Cells.read Config.nr buffer o)

/-- RESCAN_PRELOAD_COMPLETION (R9): the slot holds the tile's current samples, every mark set; the answer is placed. How
far a preload in flight has come is left open: the model keeps the slot without a mark until the completion and fills
it whole there (DESIGN CHOICE, log 28). -/
def execRescanPreloadCompletion (s : State) : Result :=
  .next <|
    match s.preloadingSlot with
    | none => s
    | some (i, x) =>
      match s.relief.tile? x.key with
      | none => s
      | some t =>
        (s.setStaging i (some { x with samples := allSamples t.current, preloading := false })).answer .scan .ok
          (tileKeyBytes x.key ++ slotModeBytes .rescan ++ u8 t.sealCount)

/-! ## Writing and viewing a slot -/

/-- PUT SAMPLES (R10): the samples written and their marks set; the answer carries the written count. -/
def execPutSamples (tx ty : Byte) (offset : Word) (samples : List Word) (s : State) : Result :=
  .next <| s.request .scan fun s1 =>
    match s1.findSlot (tileKeyOf tx ty) with
    | none => s1.answer .scan .notOpen []
    | some (i, x) =>
      if samples.length < 1 ∨ 64 < samples.length ∨ 1024 < offset.toNat + samples.length then
        s1.answer .scan .badArg []
      else
        let x' := { x with samples := x.samples.insertRun offset.toNat samples }
        (s1.setStaging i (some x')).answer .scan .ok (u16 x'.written)

/-- VIEW STAGING (R12): an unmarked sample reads as 65535. -/
def execViewStaging (tx ty : Byte) (offset : Word) (count : Byte) (s : State) : Result :=
  .next <| s.request .scan fun s1 =>
    match s1.findSlot (tileKeyOf tx ty) with
    | none => s1.answer .scan .notOpen []
    | some (_, x) =>
      if count.toNat < 1 ∨ 64 < count.toNat ∨ 1024 < offset.toNat + count.toNat then
        s1.answer .scan .badArg []
      else
        s1.answer .scan .ok
          (tileKeyBytes x.key ++ slotModeBytes x.mode ++ u16 x.written
            ++ (List.range' offset.toNat count.toNat).flatMap fun o => word2 (Cells.read Config.nr x.samples o))

/-! ## Sealing and dropping -/

/-- The tile CRC of a slot: over its 1024 samples in offset order, high byte first (R14). -/
def tileCrc (samples : Cells Word) : Word :=
  crc16 ((List.range 1024).flatMap fun o => word2 (Cells.read Config.nr samples o))

/-- SEAL TILE (R13, R15): its checks in order; passing them starts the seal and keeps the port WORKING. -/
def execSealTile (tx ty : Byte) (crc : Word) (s : State) : Result :=
  .next <| s.request .scan fun s1 =>
    match s1.findSlot (tileKeyOf tx ty) with
    | none => s1.answer .scan .notOpen []
    | some (i, x) =>
      if x.written < 1024 then s1.answer .scan .incomplete (u16 x.written)
      else
        let computed := tileCrc x.samples
        if computed ≠ crc then s1.answer .scan .badCrc (word2 computed)
        else s1.setStaging i (some { x with sealing := true })

/-- The slot whose seal is in flight (R15). -/
def State.sealingSlot (s : State) : Option (Fin 4 × Slot) :=
  allFour.findSome? fun i =>
    match s.staging.get i with
    | some x => if x.sealing then some (i, x) else none
    | none => none

/-- A tile at the completion of its seal (R16 steps 1 and 2): the buffers switched, SEALED, the seal count raised. A
sample of 65535 is what an unlisted offset reads as, so it is not listed. -/
def Tile.sealWith (samples : Cells Word) (t : Tile) : Tile :=
  { t with
    state := .sealed
    sealCount := min 255 (t.sealCount + 1)
    current := samples.filter fun e => decide (e.2 ≠ Config.nr)
    spare := t.current }

/-- The Relief Store at a seal completion (R16 steps 1, 2, 4, 5). -/
def Relief.completeSeal (r : Relief) (x : Slot) : Relief :=
  let r' := r.modifyTile x.key (Tile.sealWith x.samples)
  { r' with
    sealedCount := min Config.maxCounter (r.sealedCount + 1)
    wanted := if r.wanted = some x.key then none else r.wanted }

/-- Every active hold of SCAN origin ended (R17 step 2). -/
def State.cancelScanHolds (s : State) : State :=
  allSix.foldl
    (fun s n => if 0 < (s.spindle n).holdRemaining ∧ (s.spindle n).holdOrigin = .scan then s.endHold n else s) s

/-- SEAL_COMPLETION (R16, R17): the Relief Store's event, the answer, then the other blocks in order. -/
def execSealCompletion (s : State) : Result :=
  .next <|
    match s.sealingSlot with
    | none => s
    | some (i, x) =>
      match s.relief.tile? x.key with
      | none => s
      | some t =>
        let s1 := (s.setRelief (s.relief.completeSeal x)).setStaging i none
        let s2 := s1.answer .scan .ok (tileKeyBytes x.key ++ u8 (min 255 (t.sealCount + 1)))
        let s3 := (s2.latchScan .sealDone).latchPlan .tileSealed
        s3.cancelScanHolds.handOn (allSix.map Chore.evaluate)

/-- DROP TILE (R19, R22). -/
def execDropTile (tx ty : Byte) (s : State) : Result :=
  .next <| s.request .scan fun s1 =>
    match s1.findSlot (tileKeyOf tx ty) with
    | none => s1.answer .scan .notOpen []
    | some (i, _) => (s1.freeStaging i).answer .scan .ok []

/-! ## Defining and reading the relief -/

/-- Whether an extent is a multiple of 32 from 32 to 2048 (R1). -/
def goodExtent (n : Nat) : Bool := decide (32 ≤ n) && decide (n ≤ 2048) && decide (n % 32 = 0)

/-- A new relief (R2): every tile ABSENT, counts 0, no wanted tile. R2 does not erase the bytes of the tiles discarded and
does not say which of them a new tile's buffers hold: the model lists nothing there, so they read as NR, and no reader
reaches them before a seal (DESIGN CHOICE, log 9). -/
def Relief.define (mw mh : Nat) : Relief where
  mw := mw
  mh := mh
  tiles := List.replicate (mw / 32 * (mh / 32)) Tile.fresh
  sealedCount := 0
  wanted := none

/-- Whether DEFINE RELIEF is refused for what is in use (R2 check 1). -/
def State.reliefInUse (s : State) : Bool :=
  s.copies.toList.any (fun c => decide (c.state ≠ .free)) || s.staging.toList.any Option.isSome

/-- DEFINE RELIEF (R2). TW and TH are sent in two bytes each, as counts of tiles (DEDUCED, log 13). -/
def execDefineRelief (mw mh : Word) (s : State) : Result :=
  .next <| s.request .plan fun s1 =>
    if s1.reliefInUse then s1.answer .plan .badState []
    else if goodExtent mw.toNat = false ∨ goodExtent mh.toNat = false then s1.answer .plan .badArg []
    else
      let r := Relief.define mw.toNat mh.toNat
      (s1.setRelief r).answer .plan .ok (u16 r.tw ++ u16 r.th)

/-- READ RELIEF (R21), its checks as listed (log 12). -/
def execReadRelief (iy ix0 : Word) (count : Byte) (s : State) : Result :=
  .next <| s.request .plan fun s1 =>
    let r := s1.relief
    if r.defined = false then s1.answer .plan .badState []
    else if r.mh ≤ iy.toNat ∨ count.toNat < 1 ∨ 32 < count.toNat ∨ r.mw < ix0.toNat + count.toNat then
      s1.answer .plan .badArg []
    else
      s1.answer .plan .ok ((List.range' ix0.toNat count.toNat).flatMap fun ix => word2 (r.sample ix iy.toNat))

end Sys2Proof.Machine
end

