-- ==== Sys2Proof/Machine/Issue.lean ====
section
/-! DEFINITION. TAKE STRIP and SET PREFETCH (chapter 5). -/

namespace Sys2Proof.Machine

/-- Reason code QUEUE_EMPTY of a WAIT answer (R168). -/
def waitQueueEmpty : List Byte := [0x00#8]

/-- Reason code SCAN_BEHIND of a WAIT answer, with the tile key and the hold remaining (R94, R168). -/
def waitScanBehind (key : TileKey) (hold : Nat) : List Byte := [0x01#8] ++ tileKeyBytes key ++ u16 hold

/-- Reason code RESERVED of a WAIT answer (R168). -/
def waitReserved : List Byte := [0x02#8]

/-- Reason code PAUSED of a WAIT answer (R168). -/
def waitPaused : List Byte := [0x03#8]

/-- The tile a strip waits for (R94): the first tile of its footprint, in row-major order, that is not SEALED. -/
def State.missingTile (s : State) (k : CopySlot) (t : Strip) : Option TileKey :=
  (s.footprintOf k t).tiles.find? fun key => !s.relief.isSealed key

/-- A WAIT(SCAN_BEHIND) answer with its effects (R94, R95). -/
def State.waitForScan (s : State) (n : SpindleId) (k : CopySlot) (key : TileKey) : State :=
  let s1 := (s.offerWanted key).scanHold n (s.copy k).waitHold
  s1.answer (.spindle n) .wait (waitScanBehind key (s1.spindle n).holdRemaining)

/-- The answer of a search that finds no strip (R93). -/
def State.noStrip (s : State) (n : SpindleId) (k : CopySlot) : State :=
  if (s.copy k).plannedStrips = [] then s.answer (.spindle n) .wait waitQueueEmpty
  else
    match s.tileFailure n k with
    | none => s.answer (.spindle n) .wait waitReserved
    | some t =>
      match s.missingTile k t with
      | none => s.answer (.spindle n) .wait waitReserved
      | some key => s.waitForScan n k key

/-- The answer to a TAKE STRIP that issued a strip (R92). -/
def takenItems (key : StripKey) (t : Strip) : List Byte := keyBytes key ++ geometryBytes t.geometry

/-- Case 6 of R88: the search, and the issue or the WAIT answer. -/
def State.takeFrom (s : State) (n : SpindleId) (k : CopySlot) : State :=
  match s.search n k with
  | some t => (s.answer (.spindle n) .ok (takenItems (t.nextKey k) t)).issue n k t
  | none => s.noStrip n k

/-- TAKE STRIP (R88), its cases in order. -/
def execTakeStrip (n : SpindleId) (s : State) : Result :=
  .next <| s.request (.spindle n) fun s1 =>
    let sp := s1.spindle n
    match sp.bound with
    | none => s1.answer (.spindle n) .unbound []
    | some k =>
      match (s1.copy k).state with
      | .paused => s1.answer (.spindle n) .wait waitPaused
      | .cutting =>
        if 2 ≤ sp.issued.length then s1.answer (.spindle n) .limit []
        else if 0 < sp.holdRemaining then s1.answer (.spindle n) .holding (holdBytes sp)
        else s1.takeFrom n k
      | .ready => s1.answer (.spindle n) .badState []
      | .free => s1.answer (.spindle n) .badState []
      | .clearing => s1.answer (.spindle n) .badState []

/-- SET PREFETCH (R100): the threshold clamped to 255, then the evaluation. -/
def execSetPrefetch (n : SpindleId) (threshold : Word) (s : State) : Result :=
  .next <| s.request (.spindle n) fun s1 =>
    let x := min 255 threshold.toNat
    let s2 := (s1.modifySpindle n fun sp => { sp with threshold := x }).answer (.spindle n)
      (if x ≠ threshold.toNat then .clamped else .ok) (u16 x)
    s2.handOn [.evaluate n]

end Sys2Proof.Machine
end

