-- ==== Sys2Proof/Machine/Mailboxes.lean ====
section
/-! DEFINITION. The ORDER and NOTE boxes (R175 to R178). -/

namespace Sys2Proof.Machine

/-- A box after a POST that is taken (R176). -/
def Box.post (content : BitVec 64) : Box := { content := content, full := true }

/-- A box after a READ: the content kept, the flag cleared (R177). -/
def Box.wasRead (b : Box) : Box := { b with full := false }

/-- The items of a READ answer (R177). -/
def boxBytes (b : Box) : List Byte := flag b.full ++ content8 b.content

/-- POST ORDER (R176). -/
def execPostOrder (spindle : Byte) (content : BitVec 64) (s : State) : Result :=
  .next <| s.request .plan fun s1 =>
    match spindleOf spindle with
    | none => s1.answer .plan .badArg []
    | some n =>
      if (s1.spindle n).order.full then s1.answer .plan .full []
      else
        ((s1.modifySpindle n fun sp => { sp with order := Box.post content }).latchSpindle n .orderWaiting).answer
          .plan .ok []

/-- POST NOTE (R176). -/
def execPostNote (n : SpindleId) (content : BitVec 64) (s : State) : Result :=
  .next <| s.request (.spindle n) fun s1 =>
    if (s1.spindle n).note.full then s1.answer (.spindle n) .full []
    else
      ((s1.modifySpindle n fun sp => { sp with note := Box.post content }).latchPlan .noteWaiting).answer
        (.spindle n) .ok []

/-- READ ORDER (R177). -/
def execReadOrder (n : SpindleId) (s : State) : Result :=
  .next <| s.request (.spindle n) fun s1 =>
    (s1.modifySpindle n fun sp => { sp with order := sp.order.wasRead }).answer (.spindle n) .ok
      (boxBytes (s1.spindle n).order)

/-- READ NOTE (R177). -/
def execReadNote (spindle : Byte) (s : State) : Result :=
  .next <| s.request .plan fun s1 =>
    match spindleOf spindle with
    | none => s1.answer .plan .badArg []
    | some n =>
      (s1.modifySpindle n fun sp => { sp with note := sp.note.wasRead }).answer .plan .ok
        (boxBytes (s1.spindle n).note)

end Sys2Proof.Machine
end

