-- ==== Sys2Proof/Machine/Plans.lean ====
section
/-! DEFINITION. Pass plans: LOAD PLAN, CLEAR PLAN, READ STRIP (chapter 4). -/

namespace Sys2Proof.Machine

/-- The first of `fuel` numbers from i on that no strip of a queue has as its index, or the one after them. -/
def firstUnused (queue : List Strip) : Nat → Nat → Nat
  | 0, i => i
  | fuel + 1, i => if queue.any fun t => decide (t.index = i) then firstUnused queue fuel (i + 1) else i

/-- The lowest-numbered unused strip slot (R64). A queue of n strips leaves one of the numbers 0 to n unused. -/
def Copy.lowestUnused (c : Copy) : Nat := firstUnused c.queue c.queue.length 0

/-- The strip an accepted descriptor makes (R65, R69 case 4). -/
def acceptedStrip (d : Descriptor) (index length : Nat) : Strip where
  index := index
  row := d.row.toNat
  first := d.first.toNat
  length := length
  direction := d.direction
  state := .planned
  holder := none
  issue := 0#8
  retry := 0
  footprint := none
  lease := none
  underMerge := false

/-- Counts of a LOAD PLAN (R71). -/
structure LoadCounts where
  accepted : Nat
  clipped : Nat
  outOfExtent : Nat
  overflow : Nat
deriving DecidableEq, Repr

/-- One descriptor taken (R69): the copy and the counts after it. -/
def takeDescriptor (acc : Copy × LoadCounts) (d : Descriptor) : Copy × LoadCounts :=
  let c := acc.1
  let n := acc.2
  if c.h ≤ d.row.toNat ∨ c.w ≤ d.first.toNat then (c, { n with outOfExtent := n.outOfExtent + 1 })
  else
    let clips := decide (c.w < d.first.toNat + lengthOf d.lengthCode)
    let length := if clips then c.w - d.first.toNat else lengthOf d.lengthCode
    let n := if clips then { n with clipped := n.clipped + 1 } else n
    if Config.maxStrips ≤ c.queue.length then (c, { n with overflow := n.overflow + 1 })
    else
      ({ c with queue := c.queue ++ [acceptedStrip d c.lowestUnused length] },
        { n with accepted := n.accepted + 1 })

/-- The descriptors taken one after another (R69). -/
def takeDescriptors (c : Copy) (ds : List Descriptor) : Copy × LoadCounts :=
  ds.foldl takeDescriptor (c, { accepted := 0, clipped := 0, outOfExtent := 0, overflow := 0 })

/-- Whether the last descriptor carries the END mark (R70). -/
def endsPlan (ds : List Descriptor) : Bool :=
  match ds.getLast? with
  | some d => d.endMark
  | none => false

/-- Whether a descriptor other than the last carries the END mark (R68 check 4). -/
def marksEarly (ds : List Descriptor) : Bool := ds.dropLast.any Descriptor.endMark

/-- The answer items of a LOAD PLAN (R71). R168 gives counts of cells, strips and tiles two bytes and does not name counts
of descriptors: that accepted, clipped, out of extent and overflow take two bytes each too is the model's reading
(DEDUCED, log 13). -/
def loadItems (n : LoadCounts) (c : Copy) : List Byte :=
  u16 n.accepted ++ u16 n.clipped ++ u16 n.outOfExtent ++ u16 n.overflow ++ u16 c.queue.length
    ++ flag c.planClosed

/-- What a LOAD PLAN hands on in CUTTING (R71): the evaluations if a strip was accepted, and the pass completion test if
the request closed the plan (R81). -/
def State.afterLoad (s : State) (k : CopySlot) (accepted : Nat) (closed : Bool) : State :=
  if (s.copy k).state = .cutting then
    let s1 := if closed then s.testPass k else s
    if 1 ≤ accepted then s1.handOn ((s1.boundTo k).map Chore.evaluate) else s1
  else s

/-- LOAD PLAN (R68 to R71). A frame without 1 to 32 descriptors is a bad frame (R68, R169). -/
def execLoadPlan (slot : Byte) (ds : List Descriptor) (s : State) : Result :=
  .next <|
    if ds.length < 1 ∨ 32 < ds.length then s.request .plan fun s1 => s1.answer .plan .badFrame []
    else s.onCopy slot fun k s1 =>
      let c := s1.copy k
      if c.state = .free ∨ c.state = .clearing then s1.answer .plan .badState []
      else if c.planClosed then s1.answer .plan .closed []
      else if marksEarly ds then s1.answer .plan .badArg []
      else
        let taken := takeDescriptors c ds
        let closes := endsPlan ds
        let c' := { taken.1 with planClosed := closes }
        let s2 := (s1.setCopy k c').answer .plan .ok (loadItems taken.2 c')
        s2.afterLoad k taken.2.accepted closes

/-- CLEAR PLAN (R73): every PLANNED strip removed, the plan reopened. -/
def execClearPlan (slot : Byte) (s : State) : Result :=
  .next <| s.onCopy slot fun k s1 =>
    let c := s1.copy k
    if c.state = .free ∨ c.state = .clearing then s1.answer .plan .badState []
    else
      let kept := c.queue.filter fun t => decide (t.state ≠ .planned)
      (s1.setCopy k { c with queue := kept, planClosed := false }).answer .plan .ok
        (u16 (c.count .planned) ++ u16 kept.length)

/-- Queue position of a strip, counted from 0 at the head. -/
def Copy.position (c : Copy) (i : Nat) : Nat := c.queue.findIdx fun t => decide (t.index = i)

/-- A footprint in a READ STRIP answer, all 0 for none (R83). -/
def footprintBytes : Option Footprint → List Byte
  | some f => u8 f.tx0 ++ u8 f.ty0 ++ u8 f.tx1 ++ u8 f.ty1
  | none => [0#8, 0#8, 0#8, 0#8]

/-- The items of a READ STRIP answer for a live strip: those of R83's table and, after them, the numbers of PLANNED,
ISSUED and FENCED strips, which R66 says every READ STRIP answer shows. R83's table has no line for them: that they
stand at the end is the model's reading (DEDUCED, log 27). -/
def Copy.stripItems (c : Copy) (t : Strip) : List Byte :=
  stripStateBytes t.state ++ u16 t.index ++ u16 (c.position t.index) ++ geometryBytes t.geometry
    ++ u8 ((t.holder.map spindleNumber).getD 0) ++ [t.issue] ++ u8 t.retry ++ footprintBytes t.footprint
    ++ u16 ((t.lease.map Lease.remaining).getD 0) ++ u16 c.queue.length ++ flag c.planClosed ++ c.countItems

/-- The items of a READ STRIP answer for an unused slot or a position past the end: the state UNUSED, the queue length,
every other strip item 0 (R83; log 23), and the copy's strip counts, which no strip item is (R66; log 27). -/
def Copy.unusedItems (c : Copy) : List Byte :=
  List.replicate 21 0#8 ++ u16 c.queue.length ++ [0#8] ++ c.countItems

/-- READ STRIP (R83), its checks in order. -/
def execReadStrip (slot selector : Byte) (value : Word) (s : State) : Result :=
  .next <| s.onCopy slot fun k s1 =>
    match selectorOf selector with
    | none => s1.answer .plan .badArg []
    | some sel =>
      if 4095 < value.toNat then s1.answer .plan .badArg []
      else
        let c := s1.copy k
        if c.state = .free ∨ c.state = .clearing then s1.answer .plan .badState []
        else
          let found := match sel with
            | .index => c.strip? value.toNat
            | .position => c.queue[value.toNat]?
          match found with
          | some t => s1.answer .plan .ok (c.stripItems t)
          | none => s1.answer .plan .ok c.unusedItems

end Sys2Proof.Machine
end

