-- ==== Sys2Proof/Machine/Reports.lean ====
section
/-! DEFINITION. REPORT CUT, the cells of a merge and its completion (chapter 8). -/

namespace Sys2Proof.Machine

/-- REPORT CUT (R138, R140): decided at once, or kept waiting behind a merge of the same port (R152). R124 stops the lease
of a reported ISSUED strip when its report is taken; a report that waits names no case yet, so the model leaves the lease
running, and lets it expire, until the report is decided (DEDUCED, log 32). -/
def execReportCut (n : SpindleId) (slot : Byte) (index : Word) (issue : Byte) (floors : List Depth) (s : State) :
    Result :=
  .next <| s.request (.spindle n) fun s1 =>
    let r : Report := { slot := slot, index := index, issue := issue, floors := floors }
    match (s1.spindle n).merge with
    | some _ => s1.modifySpindle n fun sp => { sp with waiting := some r }
    | none => s1.decideReport n r

/-! ## One cell -/

/-- Whether the reported floor of a cell is an overcut against its entry (R143). -/
def isOvercut (e : Entry) (tolerance r : Nat) : Bool := decide (e.target + tolerance < r)

/-- Whether the reported floor of a cell falls short of its entry (R143). -/
def isShortfall (e : Entry) (tolerance r : Nat) : Bool :=
  !e.held && !e.nothing && decide (r + tolerance < e.target)

/-- Whether a merge's write of a cell crosses the final target plus the tolerance (R144). -/
def isSpoil (t : Option (Nat × Bool)) (tolerance before after : Nat) : Bool :=
  match t with
  | some (t, _) => decide (before ≤ t + tolerance) && decide (t + tolerance < after)
  | none => false

/-- 1 for yes. -/
def tally (b : Bool) : Nat := if b then 1 else 0

/-- The merge record after one more cell (R142 to R144); `before` and `after` are the cell's floor around the write,
r the reported floor, t the final target. -/
def Merge.count (m : Merge) (tolerance before after r : Nat) (t : Option (Nat × Bool)) : Merge :=
  let e := if m.checked then m.targets[m.done]? else none
  { m with
    done := m.done + 1
    deepened := m.deepened + tally (decide (before < after))
    overcut := m.overcut + tally (match e with | some e => isOvercut e tolerance r | none => false)
    shortfall := m.shortfall + tally (match e with | some e => isShortfall e tolerance r | none => false)
    spoil := m.spoil + tally (isSpoil t tolerance before after) }

/-- One cell of spindle n's merge (R142): the floor deepened, the checks made. -/
def State.mergeOne (s : State) (n : SpindleId) (m : Merge) (r : Nat) : State :=
  let k := m.key.copy
  let c := s.copy k
  let cx := m.geometry.column m.done
  let cy := m.geometry.row
  let before := c.floor cx cy
  let after := max before r
  let m' := m.count c.tolerance before after r (finalTarget s.relief c.mapping cx cy)
  (s.setCopy k (c.setFloor cx cy after)).modifySpindle n fun sp => { sp with merge := some m' }

/-! ## The completion -/

/-- The counters a completion raises (R145 step 1). -/
def Counters.countMerge (c : Counters) (m : Merge) : Counters :=
  { c with
    overcut := raiseCounter c.overcut m.overcut
    spoil := raiseCounter c.spoil m.spoil
    stale := raiseCounter c.stale (if m.kind = .stale then 1 else 0) }

/-- Outcome of a merge (R146, R148). -/
inductive MergeOutcome where
  | none
  | removed
  | requeued (retry : Nat)
  | stuck
deriving DecidableEq, Repr

/-- The outcome of a merge for its strip (R146). -/
def Merge.outcome (m : Merge) (retry : Nat) : MergeOutcome :=
  if m.kind = .stale then .none
  else if m.checked = true ∧ m.shortfall = 0 then .removed
  else if retry < Config.maxRetries then .requeued (retry + 1)
  else .stuck

/-- A strip settled (R146, R79): it leaves, and is removed or goes to the tail; a removal is followed by the pass
completion test. -/
def State.settle (s : State) (k : CopySlot) (t : Strip) (o : MergeOutcome) : State :=
  match o with
  | .none => s
  | .removed => ((s.leave k t true).modifyCopy k fun c => c.removeStrip t.index).testPass k
  | .requeued retry => (s.leave k t true).modifyCopy k fun c => c.requeueStrip t.index fun u => { u with retry := retry }
  | .stuck =>
    let s1 := (s.leave k t true).modifyCopy k fun c =>
      { c.removeStrip t.index with counters := { c.counters with stuck := raiseCounter c.counters.stuck 1 } }
    (s1.latchPlan .stuck).testPass k

/-- Whether a completion pauses the copy (R147). -/
def State.pausesOnSpoil (s : State) (k : CopySlot) (m : Merge) : Bool :=
  decide (1 ≤ m.spoil) && (s.copy k).stopOnSpoil && decide ((s.copy k).state = .cutting)

/-- The events of a completion (R147): OVERCUT, SPOIL with the pause it may make, STALE. -/
def State.mergeEvents (s : State) (k : CopySlot) (m : Merge) : State :=
  let s1 := if 1 ≤ m.overcut then s.latchPlan .overcut else s
  let s2 := if 1 ≤ m.spoil then s1.latchPlan .spoil else s1
  let s3 := if s.pausesOnSpoil k m then s2.modifyCopy k fun c => { c with state := .paused } else s2
  if m.kind = .stale then s3.latchPlan .stale else s3

/-- The code of a report's answer, decided at the taking (R138, R148). -/
def mergeCode : MergeKind → AnswerCode
  | .heldIssued => .ok
  | .heldFenced => .late
  | .stale => .stale

/-- Outcome item of a report's answer (R148, R168; log 14). -/
def outcomeBytes : MergeOutcome → List Byte
  | .none => u8 0
  | .removed => u8 1
  | .requeued retry => u8 2 ++ u8 retry
  | .stuck => u8 3

/-- The items of a report's answer (R148). -/
def reportItems (m : Merge) (o : MergeOutcome) (paused : Bool) : List Byte :=
  keyBytes m.key ++ flag m.checked ++ u16 m.floors.length ++ u16 m.deepened ++ u16 m.ranged ++ u16 m.overcut
    ++ u16 m.shortfall ++ u16 m.spoil ++ outcomeBytes o ++ flag paused

/-- The strip a held merge settles: none for a stale one. -/
def State.mergedStrip (s : State) (m : Merge) : Option Strip :=
  if m.kind = .stale then none else s.strip? m.key

/-- The outcome of a merge at its completion. -/
def State.mergeOutcome (s : State) (m : Merge) : MergeOutcome :=
  match s.mergedStrip m with
  | some t => m.outcome t.retry
  | none => .none

/-- Step 2 of a completion (R145). -/
def State.settleMerge (s : State) (m : Merge) : State :=
  match s.mergedStrip m with
  | some t => s.settle m.key.copy t (s.mergeOutcome m)
  | none => s

/-- Step 4 of a completion (R145): no answer for a merge a port reset has orphaned (R152). -/
def State.answerMerge (s : State) (n : SpindleId) (m : Merge) (o : MergeOutcome) (paused : Bool) : State :=
  if m.answers then s.answer (.spindle n) (mergeCode m.kind) (reportItems m o paused) else s

/-- What a completion hands on (R145, R152): the work of a strip's leaving, and a waiting report's decision. -/
def State.completionChores (s : State) (n : SpindleId) (m : Merge) : List Chore :=
  (match s.mergedStrip m with
    | some t => s.leavingChores m.key.copy (s.computes (t.keyIn m.key.copy))
    | none => [])
    ++ (if (s.spindle n).waiting.isSome then [Chore.report n] else [])

/-- The completion of spindle n's merge (R145 to R147), in the order of its steps. -/
def State.completeMerge (s : State) (n : SpindleId) (m : Merge) : State :=
  let k := m.key.copy
  let s1 := (s.modifyCopy k fun c => { c with counters := c.counters.countMerge m }).modifySpindle n
    fun sp => { sp with merge := none }
  let o := s1.mergeOutcome m
  let s2 := s1.settleMerge m
  let s3 := s2.mergeEvents k m
  let s4 := s3.answerMerge n m o (s2.pausesOnSpoil k m)
  s4.handOn (s1.completionChores n m)

/-- MERGE_CELL (R142, R145): the next cell of spindle n's merge and, after the last, its completion. Without a merge in
flight there is no such event (log 2). -/
def execMergeCell (n : SpindleId) (s : State) : Result :=
  .next <|
    match (s.spindle n).merge with
    | none => s
    | some m =>
      match m.floors[m.done]? with
      | none => s
      | some r =>
        let s1 := s.mergeOne n m r
        match (s1.spindle n).merge with
        | some m' => if m'.floors.length ≤ m'.done then s1.completeMerge n m' else s1
        | none => s1

end Sys2Proof.Machine
end

