-- ==== Sys2Proof/Machine/Resets.lean ====
section
/-! DEFINITION. PORT RESET, WARM RESET, power-on and the RESET_N pin (R163 to R165, R179). -/

namespace Sys2Proof.Machine

/-- A port reset: IDLE, empty slot, RESET_SEEN the one latch, mask and term at their defaults; the frame on it and what
was clocked out stay (R163, R170, R173). -/
def resetPort (inReset : Bool) (p : PortId) (x : Port) : Port :=
  refreshLine inReset { Port.fresh p with frame := x.frame, out := x.out }

/-- The port of a reset put back (R163). -/
def State.resetPort (s : State) (p : PortId) : State := s.modifyPort p (Machine.resetPort s.inReset p)

/-! ## Spindle Port -/

/-- What a reset of its port leaves of a spindle (R102, R119, R133, R137, R139, R152, R175): the queue emptied, every
held strip VOID, the hold 0 and PLAN, the boxes emptied, a merge in flight without an answer, a waiting report
discarded; binding, issued list, threshold and departed list kept. -/
def Spindle.portReset (sp : Spindle) : Spindle :=
  { sp with
    issued := sp.issued.map fun h => { h with status := .void }
    holdRemaining := 0
    holdOrigin := .plan
    queue := []
    readPos := 0
    merge := sp.merge.map fun m => { m with answers := false }
    waiting := none
    order := Box.empty
    note := Box.empty }

/-- The engine after a reset of the holder's port: its computation abandoned (R109, R119). -/
def Engine.abandonFor (e : Engine) (n : SpindleId) : Engine :=
  match e.inFlight with
  | some c => if c.holder = n then { e with inFlight := none } else e
  | none => e

/-- PORT RESET of a Spindle Port beyond the port itself (R163): its ISSUED strips fenced, FENCED latched on the Plan Port
if there was one (R127), the spindle reset, the computation abandoned, a grant tested (R119). -/
def State.resetSpindle (s : State) (n : SpindleId) : State :=
  let hs := s.issuedStrips n
  let s1 := (s.fenceAll n hs).modifySpindle n Spindle.portReset
  let s2 := s1.setEngine (s1.engine.abandonFor n)
  let s3 := if hs = [] then s2 else s2.latchPlan .fenced
  s3.grantTest

/-! ## Scan Port -/

/-- PORT RESET of the Scan Port beyond the port itself (R20): every slot in use freed as by DROP TILE, which also
abandons a seal (R18) and stops a preload (R9). -/
def State.resetScan (s : State) : State := allFour.foldl State.freeStaging s

/-- PORT RESET (R163): one event, no answer. -/
def execPortReset (p : PortId) (s : State) : Result :=
  .next <| s.requestAnyState p fun s1 =>
    let s2 := s1.resetPort p
    match p with
    | .plan => s2
    | .scan => s2.resetScan
    | .spindle n => s2.resetSpindle n

/-! ## WARM RESET -/

/-- The Relief Store after a WARM RESET (R22, R24). -/
def Relief.warmReset (r : Relief) : Relief :=
  { r with tiles := r.tiles.map fun t => { t with state := returnState t.state }, wanted := none }

/-- A strip after a WARM RESET (R84, R126, R153). -/
def Strip.warmReset (t : Strip) : Strip :=
  { (if t.state = .issued then t.fenced else t) with underMerge := false }

/-- A copy after a WARM RESET (R46, R84): CLEARING becomes FREE, CUTTING becomes PAUSED. -/
def Copy.warmReset (c : Copy) : Copy :=
  let kept := { c with queue := c.queue.map Strip.warmReset }
  match c.state with
  | .clearing => Copy.free
  | .cutting => { kept with state := .paused }
  | .free => kept
  | .ready => kept
  | .paused => kept

/-- A spindle after a WARM RESET: as after a reset of its port, with its merge stopped (R102, R120, R153). -/
def Spindle.warmReset (sp : Spindle) : Spindle := { sp.portReset with merge := none }

/-- A frame in progress on another port discarded (R156). -/
def discardFrame (x : Port) : Port :=
  { x with frame := match x.frame with
      | .none => .none
      | .open _ => .dead
      | .dead => .dead }

/-- A port after a WARM RESET (R156, R164). -/
def warmPort (inReset : Bool) (p : PortId) (x : Port) : Port := discardFrame (resetPort inReset p x)

/-- The eight ports, each put through a function of its number. -/
def Ports.mapAll (ps : Ports) (f : PortId → Port → Port) : Ports where
  plan := f .plan ps.plan
  scan := f .scan ps.scan
  spindles := ⟨f (.spindle 0) ps.spindles.a0, f (.spindle 1) ps.spindles.a1, f (.spindle 2) ps.spindles.a2,
    f (.spindle 3) ps.spindles.a3, f (.spindle 4) ps.spindles.a4, f (.spindle 5) ps.spindles.a5⟩

/-- The whole device after a WARM RESET (R164): each block as its chapter says; the commands that wait and the count of
free orders are no part of the device. -/
def State.warmReset (s : State) : State :=
  { s with
    relief := s.relief.warmReset
    staging := Four.fill none
    copies := s.copies.map Copy.warmReset
    engine := Engine.fresh
    spindles := s.spindles.map Spindle.warmReset
    ports := s.ports.mapAll (warmPort s.inReset) }

/-- WARM RESET (R164): one event, no answer. -/
def execWarmReset (s : State) : Result := .next <| s.requestAnyState .plan State.warmReset

/-! ## Power-on and RESET_N -/

/-- A port held in a reset of the whole device: the power-on values, its line released, SDO high impedance, any frame
discarded (R165, R179, R181). -/
def heldPort (p : PortId) (x : Port) : Port :=
  discardFrame { Port.fresh p with line := false, frame := x.frame }

/-- Every block at its power-on values and the device held in reset (R25, R47, R85, R86, R120, R137, R153, R165, R175,
R179). -/
def State.holdReset (s : State) : State :=
  { State.reset with
    ports := s.ports.mapAll heldPort
    inReset := true
    choices := s.choices
    pending := s.pending }

/-- The end of a reset (R179): every port has RESET_SEEN set and every line is driven low. -/
def State.release (s : State) : State :=
  { s with inReset := false, ports := s.ports.mapAll fun _ x => refreshLine false x }

/-- POWER_ON (R179, R165): the device leaves reset at once if RESET_N is high, and stays in it while RESET_N is low. -/
def execPowerOn (resetHigh : Bool) (s : State) : Result :=
  .next (if resetHigh then s.holdReset.release else s.holdReset)

/-- RESET_PIN (R179): 25 consecutive low periods make a reset, fewer are ignored. -/
def execResetPin (periods : Nat) (s : State) : Result :=
  .next (if Config.resetPeriods ≤ periods then s.holdReset else s)

/-- RESET_RELEASE (R179): the reset ends; a device that is not in reset is not concerned (log 2). -/
def execResetRelease (s : State) : Result := .next (if s.inReset then s.release else s)

end Sys2Proof.Machine
end

