-- ==== Sys2Proof/Machine/Timers.lean ====
section
/-! DEFINITION. The millisecond tick of a spindle, lease expiry and the end of a hold's countdown (R121, R125, R135). -/

namespace Sys2Proof.Machine

/-- Whether a held strip's lease reaches 0 at a tick that advances it (R121, R125): ISSUED, RUNNING, 1 ms left. -/
def State.expiring (s : State) (h : Held) : Bool :=
  match s.strip? h.key with
  | some t =>
    match t.lease with
    | some l => decide (t.state = .issued) && l.running && decide (l.remaining ≤ 1)
    | none => false
  | none => false

/-- A running lease lowered by 1; a stopped one does not change (R121, R124). -/
def Strip.tickLease (t : Strip) : Strip :=
  { t with lease := t.lease.map fun l => if l.running then { l with remaining := l.remaining - 1 } else l }

/-- The leases of a spindle's ISSUED strips advanced, those that reach 0 excepted (R121). -/
def State.advanceLeases (s : State) (n : SpindleId) : State :=
  let hs := (s.issuedStrips n).filter fun h => !s.expiring h
  s.mapNamed hs fun _ t => t.tickLease

/-- The expiry of a spindle's leases (R125): the strips fenced, FENCED latched once on both ports (R121, R127). -/
def State.expire (s : State) (n : SpindleId) (hs : List Held) : State :=
  if hs = [] then s else ((s.fenceAll n hs).latchSpindle n .fenced).latchPlan .fenced

/-- A tick with no active hold (R121): every running lease lowered, those that reach 0 expired. -/
def State.leaseTick (s : State) (n : SpindleId) : State :=
  (s.advanceLeases n).expire n ((s.issuedStrips n).filter s.expiring)

/-- A tick with an active hold (R121): the hold lowered and, at 0, ended with its evaluation (R135). -/
def State.holdTick (s : State) (n : SpindleId) : State :=
  if (s.spindle n).holdRemaining ≤ 1 then (s.endHold n).handOn [.evaluate n]
  else s.modifySpindle n fun sp => { sp with holdRemaining := sp.holdRemaining - 1 }

/-- MILLISECOND_TICK of one spindle (R121). -/
def execMillisecondTick (n : SpindleId) (s : State) : Result :=
  .next (if 0 < (s.spindle n).holdRemaining then s.holdTick n else s.leaseTick n)

/-- LEASE_EXPIRY (R125): the tick of a spindle at which a lease reaches 0; at any other moment there is no such event
(log 2, log 3). -/
def execLeaseExpiry (n : SpindleId) (s : State) : Result :=
  .next <|
    if (s.spindle n).holdRemaining = 0 ∧ (s.issuedStrips n).any s.expiring = true then s.leaseTick n else s

/-- HOLD_COUNTDOWN_END (R135): the tick of a spindle at which its hold reaches 0; at any other moment there is no such
event (log 2, log 3). -/
def execHoldCountdownEnd (n : SpindleId) (s : State) : Result :=
  .next (if (s.spindle n).holdRemaining = 1 then s.holdTick n else s)

end Sys2Proof.Machine
end

