-- ==== Sys2Proof/Machine/Dispatch.lean ====
section
/-! DEFINITION. What each command does: one arm per row of the opcode table. -/

namespace Sys2Proof.Machine

def exec (i : Instr) (s : State) : Host.Outcome State Fault Refusal :=
  match i with
  | .fetch p crcGood clocked => Sys2Proof.Machine.execFetch p crcGood clocked s
  | .statusPoll p phase => Sys2Proof.Machine.execStatusPoll p phase s
  | .status p => Sys2Proof.Machine.execStatus p s
  | .badFrame p flaw => Sys2Proof.Machine.execBadFrame p flaw s
  | .clearEvents p mask => Sys2Proof.Machine.execClearEvents p mask s
  | .setAttention p mask term => Sys2Proof.Machine.execSetAttention p mask term s
  | .portReset p => Sys2Proof.Machine.execPortReset p s
  | .warmReset => Sys2Proof.Machine.execWarmReset s
  | .powerOn resetHigh => Sys2Proof.Machine.execPowerOn resetHigh s
  | .resetPin periods => Sys2Proof.Machine.execResetPin periods s
  | .resetRelease => Sys2Proof.Machine.execResetRelease s
  | .millisecondTick n => Sys2Proof.Machine.execMillisecondTick n s
  | .leaseExpiry n => Sys2Proof.Machine.execLeaseExpiry n s
  | .holdCountdownEnd n => Sys2Proof.Machine.execHoldCountdownEnd n s
  | .openTile tx ty => Sys2Proof.Machine.execOpenTile tx ty s
  | .rescanPreloadCompletion => Sys2Proof.Machine.execRescanPreloadCompletion s
  | .putSamples tx ty offset samples => Sys2Proof.Machine.execPutSamples tx ty offset samples s
  | .viewStaging tx ty offset count => Sys2Proof.Machine.execViewStaging tx ty offset count s
  | .sealTile tx ty crc => Sys2Proof.Machine.execSealTile tx ty crc s
  | .sealCompletion => Sys2Proof.Machine.execSealCompletion s
  | .dropTile tx ty => Sys2Proof.Machine.execDropTile tx ty s
  | .defineRelief mw mh => Sys2Proof.Machine.execDefineRelief mw mh s
  | .readRelief iy ix0 count => Sys2Proof.Machine.execReadRelief iy ix0 count s
  | .defineCopy args => Sys2Proof.Machine.execDefineCopy args s
  | .clearCompletion slot => Sys2Proof.Machine.execClearCompletion slot s
  | .setPass slot kind stepDown allowance => Sys2Proof.Machine.execSetPass slot kind stepDown allowance s
  | .startPass slot => Sys2Proof.Machine.execStartPass slot s
  | .pauseCopy slot => Sys2Proof.Machine.execPauseCopy slot s
  | .resumeCopy slot => Sys2Proof.Machine.execResumeCopy slot s
  | .closeCopy slot => Sys2Proof.Machine.execCloseCopy slot s
  | .bindSpindle spindle slot => Sys2Proof.Machine.execBindSpindle spindle slot s
  | .unbindSpindle spindle => Sys2Proof.Machine.execUnbindSpindle spindle s
  | .readFloors slot cy c0 count => Sys2Proof.Machine.execReadFloors slot cy c0 count s
  | .readCopy slot zero => Sys2Proof.Machine.execReadCopy slot zero s
  | .loadPlan slot descriptors => Sys2Proof.Machine.execLoadPlan slot descriptors s
  | .clearPlan slot => Sys2Proof.Machine.execClearPlan slot s
  | .readStrip slot selector value => Sys2Proof.Machine.execReadStrip slot selector value s
  | .takeStrip n => Sys2Proof.Machine.execTakeStrip n s
  | .setPrefetch n threshold => Sys2Proof.Machine.execSetPrefetch n threshold s
  | .computeCell => Sys2Proof.Machine.execComputeCell s
  | .drawTargets n count => Sys2Proof.Machine.execDrawTargets n count s
  | .rewindStrip n => Sys2Proof.Machine.execRewindStrip n s
  | .renew n => Sys2Proof.Machine.execRenew n s
  | .releaseFence slot index action => Sys2Proof.Machine.execReleaseFence slot index action s
  | .holdSpindle spindle time => Sys2Proof.Machine.execHoldSpindle spindle time s
  | .reportCut n slot index issue floors => Sys2Proof.Machine.execReportCut n slot index issue floors s
  | .mergeCell n => Sys2Proof.Machine.execMergeCell n s
  | .postOrder spindle content => Sys2Proof.Machine.execPostOrder spindle content s
  | .postNote n content => Sys2Proof.Machine.execPostNote n content s
  | .readOrder n => Sys2Proof.Machine.execReadOrder n s
  | .readNote spindle => Sys2Proof.Machine.execReadNote spindle s

end Sys2Proof.Machine
end

