-- ==== Sys2Proof/Safety.lean ====
section
/-! DEFINITION. The words statements are made in: when a request is taken, what a reply leaves of a port, what an event keeps, which copy states follow which, and the invariants a run keeps. -/

namespace Sys2Proof.Machine

/-! ## Requests and replies -/

/-- Port p takes a request frame that ends now: the device is not held in reset, the frame has not been discarded, and
its status byte did not show WORKING (R156, R179). -/
def State.takes (s : State) (p : PortId) : Bool := s.frameCounts p && !showsWorking (s.fallStatus p)

/-- The frame on port p ends and is not taken as a request: only the frame and what it clocked out change. A frame that
counts has clocked out its status byte; one that a reset discarded, or that ends during a reset, has not (R154, R156,
R179). -/
def State.untaken (s : State) (p : PortId) : State :=
  s.modifyPort p fun x =>
    { x with
      frame := .none
      out := if s.frameCounts p then some ⟨s.fallStatus p, []⟩ else if s.inReset then none else x.out }

/-- t if port p takes the frame that ends now, and otherwise nothing but the end of the frame. -/
def State.ifTaken (s : State) (p : PortId) (t : State) : State := if s.takes p then t else s.untaken p

/-- The state after a request that was answered at once and did nothing else: the port ANSWERED, the answer
undelivered; latches, mask, term and line as before; the frame ended, having clocked out its status byte (R154, R155,
R158). -/
def State.replied (s : State) (p : PortId) (code : AnswerCode) (data : List Byte) : State :=
  s.modifyPort p fun x =>
    { x with
      state := .answered
      slot := some ⟨code, data⟩
      delivered := false
      frame := .none
      out := some ⟨s.fallStatus p, []⟩ }

/-- The state after a request that is still worked on and did nothing else: the port WORKING, its slot empty (R155,
R158). -/
def State.working (s : State) (p : PortId) : State :=
  s.modifyPort p fun x =>
    { x with
      state := .working
      slot := none
      delivered := false
      frame := .none
      out := some ⟨s.fallStatus p, []⟩ }

/-- The state with the latch of a mask bit set on a port and the line where the condition then has it (R170, R174,
R181). -/
def State.raise (s : State) (p : PortId) (bit : Nat) : State :=
  s.modifyPort p fun x =>
    let x' := { x with latches := x.latches ||| BitVec.twoPow 16 bit }
    { x' with line := !s.inReset && attention x' }

/-- The state with the latches, mask and term of a port replaced and the line where the condition then has it (R171,
R173, R174). -/
def State.setEvents (s : State) (p : PortId) (latches mask : Word) (term : Term) : State :=
  s.modifyPort p fun x =>
    let x' := { x with latches := latches, mask := mask, term := term }
    { x' with line := !s.inReset && attention x' }

/-- Port p takes no notice of the state of the request: a PORT RESET or a WARM RESET is taken whatever its status byte
showed (R156, R163, R164); what the frame clocked out is kept. -/
def State.afterReset (s : State) (p : PortId) : Port := { Port.fresh p with out := some ⟨s.fallStatus p, []⟩ }

/-- The commands that come as request frames but for FETCH, PORT RESET and WARM RESET, which any port state takes
(R156): those with a command code, and the bad frames. -/
def ordinaryRequest : Instr → Bool
  | .fetch _ _ _ => false
  | .portReset _ => false
  | .warmReset => false
  | .badFrame _ _ => true
  | c => (commandCode c).isSome

/-! ## What an event keeps -/

/-- Which parts of the state an event may change. -/
structure Touched where
  relief : Bool := false
  staging : Bool := false
  engine : Bool := false
  copies : List CopySlot := []
  spindles : List SpindleId := []
  ports : List PortId := []

/-- Everything but the named parts is as before: the relief, the staging slots, the engine, every copy, spindle and port
not named, whether the device is held in reset, the count of free orders and the queue
of commands. -/
def Keeps (s t : State) (c : Touched) : Prop :=
  (c.relief = false → t.relief = s.relief) ∧ (c.staging = false → t.staging = s.staging) ∧
    (c.engine = false → t.engine = s.engine) ∧ (∀ k, k ∉ c.copies → t.copy k = s.copy k) ∧
    (∀ n, n ∉ c.spindles → t.spindle n = s.spindle n) ∧ (∀ p, p ∉ c.ports → t.port p = s.port p) ∧
    t.inReset = s.inReset ∧ t.choices = s.choices ∧ t.pending = s.pending

/-! ## Hand-on work -/

/-- From s, the pieces of work cs and all they set off can be done, in some order, with t the state after the last:
each piece in turn is any of those still to be done, and what it sets off joins them (R99, R105, R106). -/
inductive WorkDone : State → List Chore → State → Prop
  | finished (s : State) : WorkDone s [] s
  | piece (s t : State) (before : List Chore) (c : Chore) (after : List Chore)
      (rest : WorkDone (s.perform c) (before ++ after ++ s.setsOff c) t) : WorkDone s (before ++ c :: after) t

/-! ## Copy states -/

/-- The changes of a copy's state the manual lists, each with the commands that can make it (R27, R47). -/
def copyMove (a b : CopyState) : Instr → Bool
  | .powerOn _ => decide (b = .free)
  | .resetPin _ => decide (b = .free)
  | .closeCopy _ => decide (b = .free)
  | .warmReset => decide (a = .clearing ∧ b = .free ∨ a = .cutting ∧ b = .paused)
  | .defineCopy _ => decide (a = .free ∧ b = .clearing)
  | .clearCompletion _ => decide (a = .clearing ∧ b = .ready)
  | .startPass _ => decide (a = .ready ∧ b = .cutting)
  | .pauseCopy _ => decide (a = .cutting ∧ b = .paused)
  | .resumeCopy _ => decide (a = .paused ∧ (b = .cutting ∨ b = .ready))
  | .loadPlan _ _ => decide (a = .cutting ∧ b = .ready)
  | .releaseFence _ _ _ => decide (a = .cutting ∧ b = .ready)
  | .mergeCell _ => decide (a = .cutting ∧ (b = .ready ∨ b = .paused))
  | _ => false

/-! ## Invariants -/

/-- Every attention line is driven low exactly while its port's condition holds and the device is not held in reset
(R174, R181). -/
def LinesAgree (s : State) : Prop :=
  ∀ p, (s.port p).line = (!s.inReset && attention (s.port p))

/-- In one copy: strips have distinct indices (R64), and the zones of two ISSUED or FENCED strips with different holders
do not meet (R91). -/
def Copy.zonesApart (c : Copy) : Prop :=
  (c.queue.map Strip.index).Nodup ∧
    ∀ t ∈ c.queue, ∀ u ∈ c.queue, t.state ≠ .planned → u.state ≠ .planned → t.holder ≠ u.holder →
      (zoneOf c t).meets (zoneOf c u) = false

/-- In every copy the zones of strips held by different spindles are apart (R91). -/
def ZonesApart (s : State) : Prop := ∀ k, (s.copy k).zonesApart

/-- Live strips of a copy whose recorded footprint covers a tile. -/
def Copy.covering (c : Copy) (tx ty : Nat) : Nat :=
  c.queue.countP fun t => match t.footprint with
    | some fp => fp.covers tx ty
    | none => false

/-- Strips over all copies whose recorded footprint covers a tile (R6). -/
def State.covering (s : State) (tx ty : Nat) : Nat := (allSix.map fun k => (s.copy k).covering tx ty).sum

/-- The strip table of a copy in order: distinct indices; a footprint recorded only while held; nothing in a FREE or
CLEARING slot (R64, R65, R27). -/
def Copy.tidy (c : Copy) : Prop :=
  (c.queue.map Strip.index).Nodup ∧ (∀ t ∈ c.queue, t.state = .planned → t.footprint = none) ∧
    (c.state = .free ∨ c.state = .clearing → c.queue = [])

/-- Every tile's dependents count is the number of strips whose footprint covers it (R6), the strip tables being in
order. -/
def DependentsExact (s : State) : Prop :=
  (∀ k, (s.copy k).tidy) ∧
    ∀ (i : Nat) (t : Tile), s.relief.tiles[i]? = some t →
      t.dependents = s.covering (i % s.relief.tw) (i / s.relief.tw)

/-- A tile with dependents is SEALED (R3, R6). -/
def CoveredSealed (s : State) : Prop := ∀ t ∈ s.relief.tiles, 0 < t.dependents → t.state = .sealed

/-- Every tile of the relief that the recorded footprint of an ISSUED or FENCED strip covers is SEALED (R3, R6). -/
def HeldTilesSealed (s : State) : Prop :=
  ∀ k, ∀ t ∈ (s.copy k).queue, t.state ≠ .planned → ∀ fp, t.footprint = some fp →
    ∀ key u, fp.covers key.tx key.ty = true → s.relief.tile? key = some u → u.state = .sealed

/-- No two slots in use hold one key (R7); the tile of a slot is STAGING in mode FIRST and RESCANNING in mode RESCAN;
and a STAGING or RESCANNING tile has a slot that holds its key (R3). -/
def SlotsAgree (s : State) : Prop :=
  (∀ i j x y, s.staging.get i = some x → s.staging.get j = some y → x.key = y.key → i = j) ∧
    (∀ i x, s.staging.get i = some x → ∃ t, s.relief.tile? x.key = some t ∧
      t.state = match x.mode with
        | .first => .staging
        | .rescan => .rescanning) ∧
    ∀ key t, s.relief.tile? key = some t → t.state = .staging ∨ t.state = .rescanning →
      ∃ i x, s.staging.get i = some x ∧ x.key = key

/-- No spindle holds more than two strips (R87), and no departed list more than four entries (R139). -/
def ListsBounded (s : State) : Prop :=
  ∀ n, (s.spindle n).issued.length ≤ 2 ∧ (s.spindle n).departed.length ≤ 4

/-- Retry counts at most 3 (R79) and counters at most 65535 (R43). -/
def CountsBounded (s : State) : Prop :=
  ∀ k, (∀ t ∈ (s.copy k).queue, t.retry ≤ Config.maxRetries) ∧
    (s.copy k).counters.spoil ≤ Config.maxCounter ∧ (s.copy k).counters.overcut ≤ Config.maxCounter ∧
    (s.copy k).counters.stale ≤ Config.maxCounter ∧ (s.copy k).counters.stuck ≤ Config.maxCounter ∧
    (s.copy k).counters.clamped ≤ Config.maxCounter ∧ (s.copy k).counters.held ≤ Config.maxCounter

/-- Holds at most 65535 ms, SCAN only the origin of an active hold (R133), with wait holds of 16 bits (R26). -/
def HoldsLegal (s : State) : Prop :=
  (∀ n, (s.spindle n).holdRemaining ≤ 65535 ∧
    ((s.spindle n).holdOrigin = .scan → 0 < (s.spindle n).holdRemaining)) ∧
  ∀ k, (s.copy k).waitHold ≤ 65535

/-- The three bounds together. -/
def BoundsHold (s : State) : Prop := ListsBounded s ∧ CountsBounded s ∧ HoldsLegal s

/-- Tile buffers, staging slots and cut maps in their canonical form. -/
def StoresCanonical (s : State) : Prop :=
  (∀ t ∈ s.relief.tiles, Cells.canonical Config.nr t.current ∧ Cells.canonical Config.nr t.spare) ∧
    (∀ i x, s.staging.get i = some x → Cells.wf x.samples) ∧
    ∀ k, Cells.canonical (s.copy k).f0 (s.copy k).floors

end Sys2Proof.Machine
end

