-- ==== Sys2Proof/Certificates/Slice0/Obligations.lean ====
section
/-! DEFINITION. The statements for the provers. A command's statement gives the whole next state, as an update of the state before it; whatever the update does not name is as before. Where a command ends by handing work on, the statement gives the state the work starts from, and `HandOnKeeps`, `LeaveEffects`, `IssueEffects` and `GrantChoice` say what that work does. -/

open Sys2Proof Sys2Proof.Machine

/-! ## Steps, reset, frames -/

/-- A step runs the command at the front of the queue on the state with the queue's rest. That there is a queue, and
that a device with an empty one idles, is the model's choice (log 1). -/
def Obligations.StepRunsFront : Prop :=
  ∀ (c : Instr) (q : List Instr) (s : State),
    step { s with pending := c :: q } = exec c { s with pending := q } ∧
    step { s with pending := [] } = .next { s with pending := [] }

/-- No command changes the queue of waiting commands, which is the model's own (log 1), and none reads it: on the same
state with another queue it does the same. -/
def Obligations.QueueUntouched : Prop :=
  ∀ (c : Instr) (s t : State), exec c s = .next t →
    t.pending = s.pending ∧ ∀ q, exec c { s with pending := q } = .next { t with pending := q }

/-- The device right after reset (R25, R47, R85, R86, R103, R120, R133, R139, R153, R165, R175). -/
def Obligations.ResetValues : Prop :=
  let s := State.reset
  (s.relief.mw = 0 ∧ s.relief.mh = 0 ∧ s.relief.tiles = [] ∧ s.relief.sealedCount = 0 ∧ s.relief.wanted = none) ∧
  (∀ i, s.staging.get i = none) ∧
  (∀ k, (s.copy k).state = .free ∧ (s.copy k).queue = [] ∧ (s.copy k).planClosed = false ∧
    (s.copy k).counters = { spoil := 0, overcut := 0, stale := 0, stuck := 0, clamped := 0, held := 0 }) ∧
  (∀ n, (s.spindle n).bound = none ∧ (s.spindle n).issued = [] ∧ (s.spindle n).threshold = 0 ∧
    (s.spindle n).holdRemaining = 0 ∧ (s.spindle n).holdOrigin = .plan ∧ (s.spindle n).queue = [] ∧
    (s.spindle n).readPos = 0 ∧ (s.spindle n).departed = [] ∧ (s.spindle n).merge = none ∧
    (s.spindle n).waiting = none ∧ (s.spindle n).order = { content := 0#64, full := false } ∧
    (s.spindle n).note = { content := 0#64, full := false }) ∧
  (s.engine.inFlight = none ∧ spindleNumber s.engine.pointer = 6) ∧
  ∀ p, (s.port p).state = .idle ∧ (s.port p).slot = none ∧ (s.port p).latches = 1#16 ∧ (s.port p).term = .any ∧
    (s.port p).mask = (match p with
      | .plan => 0x03FE#16
      | .scan => 0x000E#16
      | .spindle _ => 0x007E#16) ∧
    (s.port p).line = true ∧ (s.port p).frame = .none

/-- Frames written out from R159, R167 and R169, one or more for each port, and the three checks of R157. -/
def Obligations.FrameExamples : Prop :=
  decodeFrame .plan [0x01#8, 0xF1#8, 0xD1#8] = .fetch .plan true 3 ∧
  decodeFrame .scan (withCrc [0x20#8, 0x06#8, 0x02#8]) = .openTile 6#8 2#8 ∧
  decodeFrame (.spindle 2) (withCrc [0x41#8, 0x20#8]) = .drawTargets 2 32#8 ∧
  decodeFrame .plan (withCrc [0x6C#8, 0x03#8, 0x05#8, 0xDC#8]) = .holdSpindle 3#8 1500#16 ∧
  decodeFrame .plan (withCrc [0x63#8, 0x01#8, 0xC1#8, 0x02#8, 0x00#8, 0x64#8, 0x00#8]) =
    .loadPlan 1#8 [{ endMark := true, direction := .reverse, row := 258#14, first := 100#16, lengthCode := 0#8 }] ∧
  decodeFrame .scan (withCrc [0x40#8]) = .badFrame .scan .code ∧
  decodeFrame .plan (withCrc [0x6C#8, 0x03#8]) = .badFrame .plan .length ∧
  decodeFrame .scan [0x21#8, 0x00#8, 0x00#8, 0x00#8] = .badFrame .scan (.crc 0x21#8) ∧
  decodeFrame .plan [0x02#8, 0x00#8] = .statusPoll .plan .whole

/-- Every request comes back from its frame: the decoding of the frame of a well-formed request is the request, with
every operand at every value its width admits (R157, R159, R167, R169). -/
def Obligations.FrameRoundTrip : Prop :=
  ∀ (i : Instr) (bytes : List Byte), i.wellFormed = true → encodeFrame i = some bytes →
    decodeFrame (requestPort i) bytes = i

/-! ## Ports and frames -/

/-- STATUS_POLL: a frame of fewer than three whole bytes changes no state but the record of what it clocked out; one
still in progress keeps the status byte sampled at its fall (R154, R156, R161). The status byte has the bits of R161.
That a frame in progress is a command of its own is the model's choice (log 5). -/
def Obligations.StatusPollAndByte : Prop :=
  ∀ (p : PortId) (s : State),
    exec (.statusPoll p .whole) s = .next (s.untaken p) ∧
    exec (.statusPoll p .begun) s = .next (s.modifyPort p fun x =>
      if s.frameCounts p then { x with frame := .open (s.fallStatus p), out := some ⟨s.fallStatus p, []⟩ }
      else { x with frame := .dead, out := if s.inReset then none else x.out }) ∧
    ((s.port p).frame = .none → s.fallStatus p = s.statusOf p) ∧
    (∀ b, (s.port p).frame = .open b → s.fallStatus p = b) ∧
    (s.statusOf p).extractLsb' 6 2 = (match (s.port p).state with
      | .idle => 0#2
      | .working => 1#2
      | .answered => 2#2) ∧
    (s.statusOf p).getLsbD 5 = (s.port p).line ∧
    (s.statusOf p).getLsbD 4 = (match p with
      | .plan => false
      | .scan => false
      | .spindle n => decide (0 < (s.spindle n).holdRemaining)) ∧
    (s.statusOf p).getLsbD 3 = (s.port p).latches.getLsbD 0 ∧
    (s.statusOf p).getLsbD 2 = ((s.port p).slot.isSome && !(s.port p).delivered) ∧
    (s.statusOf p).extractLsb' 0 2 = 0#2

/-- FETCH in every port state (R159, R160): the envelope clocked out from byte 4, and the slot settled by whether the
frame clocked the whole of a held answer out. A frame shorter than three bytes is a status poll. That a FETCH is taken
and settled in one command, its envelope read from the state at the rise, is the model's choice (log 6). That a FETCH of
exactly three bytes sets the delivered mark is its reading (log 31). -/
def Obligations.FetchDelivers : Prop :=
  ∀ (p : PortId) (good : Bool) (clocked : Nat) (s : State),
    let x := s.port p
    let held := if good = true ∧ x.state = .answered then x.slot else none
    let e : Envelope := match held with
      | some e => e
      | none => ⟨if good then (if x.state = .working then .pending else .none) else .badCrc, []⟩
    let bytes := envelopeBytes e
    let x' := { x with frame := .none, out := some ⟨s.fallStatus p, bytes.take (clocked - 3)⟩ }
    exec (.fetch p good clocked) s = .next (
      if clocked < 3 ∨ s.frameCounts p = false then s.untaken p
      else if held = none then s.setPort p x'
      else if 3 + bytes.length ≤ clocked then
        s.setPort p { x' with state := .idle, slot := none, delivered := false }
      else s.setPort p { x' with delivered := true })

/-- STATUS on every port: OK at once; the data begins with latches, mask and term and goes on with the port's own items
in the order of R162, everything as it stood before the request (R162, R23, R101, R118, R133, R139, R140, R175). The
widths no rule gives, the bytes of the mailbox items and what a list shows of a strip its copy does not hold are the
model's (log 13, log 14, log 19). -/
def Obligations.StatusAnswers : Prop :=
  ∀ (p : PortId) (s : State),
    let bit (b : Bool) : Byte := if b then 1#8 else 0#8
    let six (f : Fin 6 → List Byte) : List Byte := f 0 ++ f 1 ++ f 2 ++ f 3 ++ f 4 ++ f 5
    let four (f : Fin 4 → List Byte) : List Byte := f 0 ++ f 1 ++ f 2 ++ f 3
    let key (x : StripKey) : List Byte := u8 x.copy.val ++ u16 x.index ++ [x.issue]
    let placed (row first length : Nat) (d : Direction) : List Byte :=
      u16 row ++ u16 first ++ u16 length ++ [if d = .reverse then 1#8 else 0#8]
    let hold (n : SpindleId) : List Byte :=
      u16 (s.spindle n).holdRemaining ++ [if (s.spindle n).holdOrigin = .scan then 1#8 else 0#8]
    let boxes (n : SpindleId) : List Byte := [bit (s.spindle n).order.full, bit (s.spindle n).note.full]
    let items : List Byte := match p with
      | .plan =>
        u16 s.relief.mw ++ u16 s.relief.mh ++ u16 s.relief.sealedCount
          ++ six (fun k => match (s.copy k).state with
            | .free => [0x00#8]
            | .clearing => [0x01#8]
            | .ready => [0x02#8]
            | .cutting => [0x03#8]
            | .paused => [0x04#8])
          ++ (match s.engine.inFlight with
            | none => [0x00#8]
            | some c => [0x01#8] ++ u8 (c.holder.val + 1) ++ key c.key ++ u16 c.made)
          ++ u8 (s.engine.pointer.val + 1)
          ++ six hold
          ++ six (fun n => match (s.spindle n).merge with
            | none => [0x00#8]
            | some m => [0x01#8] ++ key m.key ++ (match m.kind with
              | .heldIssued => [0x00#8]
              | .heldFenced => [0x01#8]
              | .stale => [0x02#8]) ++ u16 m.done)
          ++ six boxes
      | .scan =>
        (match s.relief.wanted with
          | none => [0x00#8]
          | some x => [0x01#8] ++ u8 x.tx ++ u8 x.ty)
          ++ four (fun i => match s.staging.get i with
            | none => [0x00#8]
            | some x => [0x01#8] ++ u8 x.key.tx ++ u8 x.key.ty ++ [if x.mode = .rescan then 1#8 else 0#8]
                ++ u16 x.samples.length ++ [bit x.sealing])
      | .spindle n =>
        (match (s.spindle n).bound with
          | none => [0x00#8]
          | some k => [0x01#8] ++ u8 k.val)
          ++ u8 (s.spindle n).issued.length
          ++ (s.spindle n).issued.flatMap (fun h => key h.key ++ match s.strip? h.key with
            | none => []
            | some t => placed t.row t.first t.length t.direction
                ++ (match t.state with
                  | .planned => [0x01#8]
                  | .issued => [0x02#8]
                  | .fenced => [0x03#8])
                ++ u16 (match t.lease with
                  | some l => l.remaining
                  | none => 0)
                ++ [if h.status = .complete then 1#8 else 0#8])
          ++ u16 (s.spindle n).threshold ++ hold n
          ++ u16 (s.spindle n).queue.length ++ u16 (s.spindle n).readPos
          ++ u16 ((s.spindle n).queue.length - (s.spindle n).readPos)
          ++ (s.spindle n).issued.flatMap (fun h => match h.status with
            | .awaiting => [0x00#8]
            | .computing => [0x01#8] ++ u16 (match s.engine.inFlight with
                | some c => c.made
                | none => 0)
            | .complete => [0x02#8]
            | .void => [0x03#8])
          ++ u8 (s.spindle n).departed.length
          ++ (s.spindle n).departed.flatMap (fun d =>
            key d.key ++ placed d.geometry.row d.geometry.first d.geometry.length d.geometry.direction)
          ++ boxes n
    exec (.status p) s = .next (s.ifTaken p (s.replied p .ok
      (word2 (s.port p).latches ++ word2 (s.port p).mask ++ [if (s.port p).term = .all then 1#8 else 0#8] ++ items)))

/-- BAD_FRAME: answered BAD_CRC or BAD_FRAME with no data, and nothing else changes but BLOCK_BAD, latched for a PUT
SAMPLES frame that fails its CRC on the Scan Port (R157, R11). -/
def Obligations.BadFrameAnswers : Prop :=
  ∀ (p : PortId) (f : FrameFlaw) (s : State),
    let u := s.replied p (match f with
      | .crc _ => .badCrc
      | .code => .badFrame
      | .length => .badFrame) []
    exec (.badFrame p f) s = .next (s.ifTaken p (if p = .scan ∧ f = .crc 0x21#8 then u.raise .scan 2 else u))

/-- CLEAR EVENTS and SET ATTENTION on every port (R171, R173, R174): the latches named by the mask are cleared, the
answer carries them before and after; the mask is stored without bit 0 and the bits that name no latch; a term of
another value is refused; the line goes where the condition then has it. -/
def Obligations.EventAndAttentionRequests : Prop :=
  ∀ (p : PortId) (mask : Word) (term : Byte) (s : State),
    let x := s.port p
    let named : Word := match p with
      | .plan => 0x03FE#16
      | .scan => 0x000E#16
      | .spindle _ => 0x007E#16
    let after := x.latches &&& ~~~ (mask &&& (named ||| 1#16))
    exec (.clearEvents p mask) s = .next (s.ifTaken p
      ((s.replied p .ok (word2 x.latches ++ word2 after)).setEvents p after x.mask x.term)) ∧
    exec (.setAttention p mask term) s = .next (s.ifTaken p
      (if term = 0#8 ∨ term = 1#8 then
        (s.replied p .ok (word2 (mask &&& named) ++ [term])).setEvents p x.latches (mask &&& named)
          (if term = 0#8 then .any else .all)
      else s.replied p .badArg []))

/-- A request frame whose status byte showed WORKING is refused: nothing changes but the end of the frame and the
status byte it clocked out. FETCH, PORT RESET and WARM RESET are the exceptions (R156). -/
def Obligations.RefusedWhileWorking : Prop :=
  ∀ (c : Instr) (s : State), ordinaryRequest c = true → s.frameCounts (requestPort c) = true →
    (s.fallStatus (requestPort c)).extractLsb' 6 2 = 1#2 →
    exec c s = .next (s.modifyPort (requestPort c) fun x =>
      { x with frame := .none, out := some ⟨s.fallStatus (requestPort c), []⟩ })

/-- A frame on one port, be it a request, a bad frame or a status poll, leaves every other port's state, answer, mask,
term, frame and output as they were, WARM RESET excepted; it can only set latches there (R154, R155, R163, R170). -/
def Obligations.PortsIndependent : Prop :=
  ∀ (c : Instr) (s t : State),
    (commandCode c).isSome = true ∨ ordinaryRequest c = true ∨ (∃ p ph, c = .statusPoll p ph) → c ≠ .warmReset →
    exec c s = .next t → ∀ q, q ≠ requestPort c →
      (t.port q).state = (s.port q).state ∧ (t.port q).slot = (s.port q).slot ∧
      (t.port q).delivered = (s.port q).delivered ∧ (t.port q).mask = (s.port q).mask ∧
      (t.port q).term = (s.port q).term ∧ (t.port q).frame = (s.port q).frame ∧
      (t.port q).out = (s.port q).out ∧ (s.port q).latches &&& (t.port q).latches = (s.port q).latches

/-- Every attention line follows its port's condition at every step, and is released while the device is held in reset
(R174, R181). -/
def Obligations.LinesFollowCondition : Prop :=
  ∀ s t : State, LinesAgree s → step s = .next t → LinesAgree t

/-! ## Resets -/

/-- PORT RESET of the Plan Port and of the Scan Port, taken in any port state (R163, R20, R19, R22, R9, R18): no answer;
the Plan Port's reset touches nothing else; the Scan Port's frees every staging slot, returns the tiles, and makes the
wanted tile none where it names a tile so returned to SEALED. That a seal it abandons has left the spare buffer as it was
is the model's choice (log 10). -/
def Obligations.PlanAndScanPortReset : Prop :=
  ∀ s : State,
    exec (.portReset .plan) s = .next
      (if s.frameCounts .plan then s.setPort .plan (s.afterReset .plan) else s.untaken .plan) ∧
    (s.frameCounts .scan = false → exec (.portReset .scan) s = .next (s.untaken .scan)) ∧
    (s.frameCounts .scan = true → ∃ t : State, exec (.portReset .scan) s = .next t ∧
      Keeps s t { relief := true, staging := true, ports := [.scan] } ∧
      t.port .scan = s.afterReset .scan ∧ (∀ i, t.staging.get i = none) ∧
      t.relief.mw = s.relief.mw ∧ t.relief.mh = s.relief.mh ∧ t.relief.sealedCount = s.relief.sealedCount ∧
      (∀ key, t.relief.tile? key = (s.relief.tile? key).map fun u =>
        if s.findSlot key = none then u else { u with state := returnState u.state }) ∧
      (∀ key, s.relief.wanted = some key →
        t.relief.wanted = if s.findSlot key ≠ none ∧ t.relief.isSealed key = true then none else some key) ∧
      (s.relief.wanted = none → t.relief.wanted = none))

/-- PORT RESET of a Spindle Port (R163, R102, R119, R127, R133, R137, R139, R152, R175): its ISSUED strips FENCED, FENCED
latched on the Plan Port if there was one, its strips VOID, its queue empty, its hold 0 and PLAN, its boxes emptied, a
merge in flight without an answer, a waiting report discarded; binding, list, threshold and departed list kept; the
computation abandoned and a grant tested. -/
def Obligations.SpindlePortReset : Prop :=
  ∀ (n : SpindleId) (s : State),
    let hs := s.issuedStrips n
    (s.frameCounts (.spindle n) = false → exec (.portReset (.spindle n)) s = .next (s.untaken (.spindle n))) ∧
    (s.frameCounts (.spindle n) = true → ∃ v : State, exec (.portReset (.spindle n)) s = .next v.grantTest ∧
      v.relief = s.relief ∧ v.staging = s.staging ∧ v.inReset = s.inReset ∧ v.choices = s.choices ∧
      v.pending = s.pending ∧
      (∀ k, v.copy k = { s.copy k with
        queue := (s.copy k).queue.map fun t =>
          if names hs k t.index then { t with state := .fenced, lease := none } else t }) ∧
      v.spindle n =
        { bound := (s.spindle n).bound
          issued := (s.spindle n).issued.map fun h => { h with status := .void }
          threshold := (s.spindle n).threshold
          holdRemaining := 0
          holdOrigin := .plan
          queue := []
          readPos := 0
          departed := (s.spindle n).departed
          merge := (s.spindle n).merge.map fun m => { m with answers := false }
          waiting := none
          order := { content := 0#64, full := false }
          note := { content := 0#64, full := false } } ∧
      (∀ j, j ≠ n → v.spindle j = s.spindle j) ∧
      v.engine.pointer = s.engine.pointer ∧
      v.engine.inFlight = s.engine.inFlight.filter (fun c => decide (c.holder ≠ n)) ∧
      v.port (.spindle n) = s.afterReset (.spindle n) ∧
      v.port .plan = (if hs = [] then s else s.raise .plan 3).port .plan ∧
      ∀ q, q ≠ .spindle n → q ≠ .plan → v.port q = s.port q)

/-- WARM RESET, one event for the whole device (R164, R24, R46, R84, R102, R120, R137, R153, R156, R175). That a seal it
abandons has left the spare buffer as it was, and that a freed copy slot has every field 0, are the model's choices (log
10, log 16). -/
def Obligations.WarmResetEffects : Prop :=
  ∀ s : State,
    (s.frameCounts .plan = false → exec .warmReset s = .next (s.untaken .plan)) ∧
    (s.frameCounts .plan = true → ∃ t : State, exec .warmReset s = .next t ∧
      t.relief = { s.relief with
        tiles := s.relief.tiles.map fun u =>
          { u with state := match u.state with
            | .staging => .absent
            | .rescanning => .sealed
            | .absent => .absent
            | .sealed => .sealed }
        wanted := none } ∧
      (∀ i, t.staging.get i = none) ∧
      (∀ k, (s.copy k).state = .clearing → t.copy k = Copy.free) ∧
      (∀ k, (s.copy k).state ≠ .clearing → t.copy k = { s.copy k with
        state := if (s.copy k).state = .cutting then .paused else (s.copy k).state
        queue := (s.copy k).queue.map fun u =>
          if u.state = .issued then { u with state := .fenced, lease := none, underMerge := false }
          else { u with underMerge := false } }) ∧
      (∀ n, t.spindle n =
        { bound := (s.spindle n).bound
          issued := (s.spindle n).issued.map fun h => { h with status := .void }
          threshold := (s.spindle n).threshold
          holdRemaining := 0
          holdOrigin := .plan
          queue := []
          readPos := 0
          departed := (s.spindle n).departed
          merge := none
          waiting := none
          order := { content := 0#64, full := false }
          note := { content := 0#64, full := false } }) ∧
      t.engine.inFlight = none ∧ spindleNumber t.engine.pointer = 6 ∧
      t.port .plan = s.afterReset .plan ∧
      (∀ q, q ≠ .plan → t.port q = { Port.fresh q with
        frame := if (s.port q).frame = .none then .none else .dead, out := (s.port q).out }) ∧
      t.inReset = s.inReset ∧ t.choices = s.choices ∧ t.pending = s.pending)

/-- POWER_ON, RESET_PIN and RESET_RELEASE (R165, R179, R181): every block at its power-on values, every line released
and nothing clocked out while the device is held; at the end of the reset every line driven low. Fewer than 25 low
periods are ignored, and so, as the model has it, is the release of a device that is not held (log 2, log 17). No rule
gives the fields of a FREE copy slot a reset value: that they are 0 is the model's choice (log 16), and so is that its own
count of free orders is kept (log 8). -/
def Obligations.PowerOnAndResetPin : Prop :=
  ∀ (high : Bool) (periods : Nat) (s : State),
    let held (released : Bool) : State :=
      { State.reset with
        ports := s.ports.mapAll fun p x =>
          { Port.fresh p with line := released, frame := if x.frame = .none then .none else .dead }
        inReset := !released
        choices := s.choices
        pending := s.pending }
    exec (.powerOn high) s = .next (held high) ∧
    exec (.resetPin periods) s = .next (if 25 ≤ periods then held false else s) ∧
    exec .resetRelease s = .next (if s.inReset then
        { s with inReset := false, ports := s.ports.mapAll fun _ x => { x with line := attention x } }
      else s)

/-! ## Time -/

/-- The millisecond tick of a spindle (R121, R125, R127, R135). With a hold active it lowers the hold, and at 0 ends it;
with none it lowers every running lease and fences the strips whose lease reaches 0, those of its ISSUED strips with a
RUNNING lease of at most 1 ms, FENCED latched once on both ports. LEASE_EXPIRY and HOLD_COUNTDOWN_END are, in the model, that tick where it has that effect and nothing otherwise
(log 2, log 3). -/
def Obligations.TickEffects : Prop :=
  ∀ (n : SpindleId) (s : State),
    let sp := s.spindle n
    let ended := (s.setSpindle n { sp with holdRemaining := 0, holdOrigin := .plan }).raise (.spindle n) 3
    let dying := (s.issuedStrips n).filter s.expiring
    (∀ h, s.expiring h = true ↔ ∃ t l, s.strip? h.key = some t ∧ t.state = .issued ∧ t.lease = some l ∧
      l.running = true ∧ l.remaining ≤ 1) ∧
    (∀ h, h ∈ s.issuedStrips n ↔ h ∈ sp.issued ∧ ∃ t, s.strip? h.key = some t ∧ t.state = .issued) ∧
    (∀ hs k i, names hs k i = true ↔ ∃ h ∈ hs, h.key.copy = k ∧ h.key.index = i) ∧
    (0 < sp.holdRemaining → exec (.millisecondTick n) s = .next
      (if sp.holdRemaining = 1 then ended.handOn [.evaluate n]
        else s.setSpindle n { sp with holdRemaining := sp.holdRemaining - 1 })) ∧
    exec (.holdCountdownEnd n) s = .next (if sp.holdRemaining = 1 then ended.handOn [.evaluate n] else s) ∧
    (0 < sp.holdRemaining → exec (.leaseExpiry n) s = .next s) ∧
    (sp.holdRemaining = 0 → ∃ v : State,
      exec (.millisecondTick n) s = .next (if dying = [] then v else (v.raise (.spindle n) 4).raise .plan 3) ∧
      exec (.leaseExpiry n) s = .next (if dying = [] then s else (v.raise (.spindle n) 4).raise .plan 3) ∧
      v.relief = s.relief ∧ v.staging = s.staging ∧ v.engine = s.engine ∧ v.ports = s.ports ∧
      v.inReset = s.inReset ∧ v.choices = s.choices ∧ v.pending = s.pending ∧
      (∀ k, v.copy k = { s.copy k with
        queue := (s.copy k).queue.map fun t =>
          if names dying k t.index then { t with state := .fenced, lease := none }
          else if names (s.issuedStrips n) k t.index then
            { t with lease := t.lease.map fun l =>
                if l.running then { l with remaining := l.remaining - 1 } else l }
          else t }) ∧
      (∀ j, j ≠ n → v.spindle j = s.spindle j) ∧
      v.spindle n = { sp with
        issued := sp.issued.map fun h =>
          if dying.any (fun g => decide (g.key = h.key)) ∧ h.status = .awaiting then { h with status := .void }
          else h })

/-! ## The relief and its tiles -/

/-- OPEN TILE (R7 to R9) with its checks in order, in the lowest-numbered free slot, a FIRST open answered at once and a
RESCAN open kept WORKING; and the end of its preload (R9), which fills the slot with the tile's samples and all 1024
marks. A preload that ends when none is in
flight changes nothing, and the slot has no mark until the end of its preload: the model's choices (log 2, log 28). The
one byte of a seal count is its reading (log 13). -/
def Obligations.OpenTileAndPreload : Prop :=
  (∀ (tx ty : Byte) (s : State),
    let key : TileKey := ⟨tx.toNat, ty.toNat⟩
    exec (.openTile tx ty) s = .next (s.ifTaken .scan (
      if s.relief.mw = 0 then s.replied .scan .badState []
      else match s.relief.tile? key with
        | none => s.replied .scan .badArg []
        | some t =>
          if t.state = .staging ∨ t.state = .rescanning then s.replied .scan .badState []
          else match s.freeSlot with
            | none => s.replied .scan .noSlot []
            | some i =>
              if t.state = .absent then
                ((s.replied .scan .ok [tx, ty, 0#8]).setRelief
                  (s.relief.modifyTile key fun u => { u with state := .staging })).setStaging i
                    (some { key := key, mode := .first, samples := [], sealing := false, preloading := false })
              else if 0 < t.dependents then s.replied .scan .dependent []
              else
                ((s.working .scan).setRelief
                  (s.relief.modifyTile key fun u => { u with state := .rescanning })).setStaging i
                    (some { key := key, mode := .rescan, samples := [], sealing := false, preloading := true })))) ∧
  (∀ (s : State) (i : Fin 4), s.freeSlot = some i ↔ s.staging.get i = none ∧ ∀ j, j < i → s.staging.get j ≠ none) ∧
  (∀ s : State, s.freeSlot = none ↔ ∀ i, s.staging.get i ≠ none) ∧
  (∀ (s : State) (i : Fin 4) (x : Slot), s.preloadingSlot = some (i, x) →
    s.staging.get i = some x ∧ x.preloading = true) ∧
  (∀ s : State, s.preloadingSlot = none ↔ ∀ i x, s.staging.get i = some x → x.preloading = false) ∧
  (∀ s : State, s.preloadingSlot = none → exec .rescanPreloadCompletion s = .next s) ∧
  ∀ (s : State) (i : Fin 4) (x : Slot) (t : Tile), s.preloadingSlot = some (i, x) →
    s.relief.tile? x.key = some t →
    ∃ m : Cells Word, exec .rescanPreloadCompletion s = .next
        ((s.setStaging i (some { x with samples := m, preloading := false })).answer .scan .ok
          (u8 x.key.tx ++ u8 x.key.ty ++ [1#8] ++ u8 t.sealCount)) ∧
      m.length = 1024 ∧ ∀ o, m.lookup o = if o < 1024 then some (Cells.read 0xFFFF#16 t.current o) else none

/-- PUT SAMPLES and VIEW STAGING (R7, R10, R12): the slot found is one in use that holds the key; their checks in order, the samples written with their marks from the offset
on and no other, the written count in the answer; a view changes no state, and an unmarked sample reads 65535. R12 does
not number a view's checks: their order is the model's reading (log 12). -/
def Obligations.StagingWriteAndView : Prop :=
  (∀ (s : State) (key : TileKey) (i : Fin 4) (x : Slot), s.findSlot key = some (i, x) →
    s.staging.get i = some x ∧ x.key = key) ∧
  (∀ (s : State) (key : TileKey), s.findSlot key = none ↔ ∀ i x, s.staging.get i = some x → x.key ≠ key) ∧
  (∀ (tx ty : Byte) (offset : Word) (vs : List Word) (s : State),
    exec (.putSamples tx ty offset vs) s = .next (s.ifTaken .scan (
      match s.findSlot ⟨tx.toNat, ty.toNat⟩ with
      | none => s.replied .scan .notOpen []
      | some (i, x) =>
        if vs.length < 1 ∨ 64 < vs.length ∨ 1024 < offset.toNat + vs.length then s.replied .scan .badArg []
        else
          let m := x.samples.insertRun offset.toNat vs
          (s.replied .scan .ok (u16 m.length)).setStaging i (some { x with samples := m })))) ∧
  (∀ (m : Cells Word) (from_ o : Nat) (vs : List Word),
    (m.insertRun from_ vs).lookup o =
      if from_ ≤ o ∧ o < from_ + vs.length then vs[o - from_]? else m.lookup o) ∧
  ∀ (tx ty : Byte) (offset : Word) (count : Byte) (s : State),
    exec (.viewStaging tx ty offset count) s = .next (s.ifTaken .scan (
      match s.findSlot ⟨tx.toNat, ty.toNat⟩ with
      | none => s.replied .scan .notOpen []
      | some (_, x) =>
        if count.toNat < 1 ∨ 64 < count.toNat ∨ 1024 < offset.toNat + count.toNat then s.replied .scan .badArg []
        else s.replied .scan .ok (u8 x.key.tx ++ u8 x.key.ty ++ [if x.mode = .rescan then 1#8 else 0#8]
          ++ u16 x.samples.length
          ++ (List.range' offset.toNat count.toNat).flatMap fun o => word2 ((x.samples.lookup o).getD 0xFFFF#16))))

/-- SEAL TILE and DROP TILE (R13, R14, R15, R19, R22): a seal is refused while a mark is missing or the CRC differs, and
otherwise starts, the port WORKING; a drop frees the slot, returns the tile, and makes the wanted tile none where it
names that tile and the tile is SEALED. -/
def Obligations.SealAndDrop : Prop :=
  ∀ (tx ty : Byte) (crc : Word) (s : State),
    exec (.sealTile tx ty crc) s = .next (s.ifTaken .scan (
      match s.findSlot ⟨tx.toNat, ty.toNat⟩ with
      | none => s.replied .scan .notOpen []
      | some (i, x) =>
        let computed := crc16 ((List.range 1024).flatMap fun o => word2 ((x.samples.lookup o).getD 0xFFFF#16))
        if x.samples.length < 1024 then s.replied .scan .incomplete (u16 x.samples.length)
        else if computed ≠ crc then s.replied .scan .badCrc (word2 computed)
        else (s.working .scan).setStaging i (some { x with sealing := true }))) ∧
    exec (.dropTile tx ty) s = .next (s.ifTaken .scan (
      match s.findSlot ⟨tx.toNat, ty.toNat⟩ with
      | none => s.replied .scan .notOpen []
      | some (i, x) =>
        let r := s.relief.modifyTile x.key fun u =>
          { u with state := match u.state with
            | .staging => .absent
            | .rescanning => .sealed
            | .absent => .absent
            | .sealed => .sealed }
        let r' := if r.wanted = some x.key ∧ r.isSealed x.key = true then { r with wanted := none } else r
        ((s.replied .scan .ok []).setRelief r').setStaging i none))

/-- SEAL_COMPLETION (R16, R17, R135) for the slot whose seal is in flight: the buffers switched, the tile SEALED and its count raised, the slot freed, the
sealed-tile count raised, the wanted tile cleared, the answer; SEAL_DONE and TILE_SEALED; every active hold of SCAN
origin ended; then auto-prefetch for every spindle. A completion when no seal is in flight changes nothing: the model's
choice (log 2). The one byte of a seal count is its reading (log 13). -/
def Obligations.SealCompletionEffects : Prop :=
  (∀ (s : State) (i : Fin 4) (x : Slot), s.sealingSlot = some (i, x) → s.staging.get i = some x ∧ x.sealing = true) ∧
  (∀ s : State, s.sealingSlot = none ↔ ∀ i x, s.staging.get i = some x → x.sealing = false) ∧
  (∀ s : State, s.sealingSlot = none → exec .sealCompletion s = .next s) ∧
  ∀ (s : State) (i : Fin 4) (x : Slot) (t : Tile), s.sealingSlot = some (i, x) →
    s.relief.tile? x.key = some t →
    ∃ v : State, exec .sealCompletion s = .next (v.handOn (allSix.map Chore.evaluate)) ∧
      v.copies = s.copies ∧ v.engine = s.engine ∧ v.inReset = s.inReset ∧ v.choices = s.choices ∧
      v.pending = s.pending ∧
      (∃ b : Cells Word,
        v.relief.tile? x.key = some
          { state := .sealed
            sealCount := min 255 (t.sealCount + 1)
            dependents := t.dependents
            current := b
            spare := t.current } ∧
        (Cells.wf x.samples → ∀ o, Cells.read 0xFFFF#16 b o = (x.samples.lookup o).getD 0xFFFF#16)) ∧
      (∀ key, key ≠ x.key → v.relief.tile? key = s.relief.tile? key) ∧
      v.relief.mw = s.relief.mw ∧ v.relief.mh = s.relief.mh ∧
      v.relief.sealedCount = min 65535 (s.relief.sealedCount + 1) ∧
      v.relief.wanted = (if s.relief.wanted = some x.key then none else s.relief.wanted) ∧
      v.staging = s.staging.set i none ∧
      (∀ n, v.spindle n =
        if 0 < (s.spindle n).holdRemaining ∧ (s.spindle n).holdOrigin = .scan then
          { s.spindle n with holdRemaining := 0, holdOrigin := .plan }
        else s.spindle n) ∧
      v.port .scan = ((s.answer .scan .ok
        (u8 x.key.tx ++ u8 x.key.ty ++ u8 (min 255 (t.sealCount + 1)))).raise .scan 1).port .scan ∧
      v.port .plan = (s.raise .plan 8).port .plan ∧
      ∀ n, v.port (.spindle n) =
        if 0 < (s.spindle n).holdRemaining ∧ (s.spindle n).holdOrigin = .scan then
          (s.raise (.spindle n) 3).port (.spindle n)
        else s.port (.spindle n)

/-- DEFINE RELIEF (R1, R2), refused while a copy slot or a staging slot is in use or the extent is bad, and otherwise a
new table; READ RELIEF (R4, R21), which changes no state. R21 does not number its two refusals: that an undefined relief
comes first is the model's reading (log 12), and so are the two bytes of TW and TH (log 13). That the buffers of a new
tile hold nothing is its choice (log 9). -/
def Obligations.ReliefDefineAndRead : Prop :=
  (∀ (mw mh : Word) (s : State),
    let good (n : Nat) : Prop := 32 ≤ n ∧ n ≤ 2048 ∧ n % 32 = 0
    ((∃ k, (s.copy k).state ≠ .free) ∨ (∃ i, s.staging.get i ≠ none) →
      exec (.defineRelief mw mh) s = .next (s.ifTaken .plan (s.replied .plan .badState []))) ∧
    ((∀ k, (s.copy k).state = .free) → (∀ i, s.staging.get i = none) →
      (¬ (good mw.toNat ∧ good mh.toNat) →
        exec (.defineRelief mw mh) s = .next (s.ifTaken .plan (s.replied .plan .badArg []))) ∧
      (good mw.toNat ∧ good mh.toNat →
        exec (.defineRelief mw mh) s = .next (s.ifTaken .plan
          ((s.replied .plan .ok (u16 (mw.toNat / 32) ++ u16 (mh.toNat / 32))).setRelief
            { mw := mw.toNat
              mh := mh.toNat
              tiles := List.replicate (mw.toNat / 32 * (mh.toNat / 32))
                { state := .absent, sealCount := 0, dependents := 0, current := [], spare := [] }
              sealedCount := 0
              wanted := none }))))) ∧
  ∀ (iy ix0 : Word) (count : Byte) (s : State),
    exec (.readRelief iy ix0 count) s = .next (s.ifTaken .plan (
      if s.relief.mw = 0 then s.replied .plan .badState []
      else if s.relief.mh ≤ iy.toNat ∨ count.toNat < 1 ∨ 32 < count.toNat ∨ s.relief.mw < ix0.toNat + count.toNat
      then s.replied .plan .badArg []
      else s.replied .plan .ok ((List.range' ix0.toNat count.toNat).flatMap fun ix =>
        word2 (match s.relief.tile? ⟨ix / 32, iy.toNat / 32⟩ with
          | some t =>
            if t.state = .sealed ∨ t.state = .rescanning then
              Cells.read 0xFFFF#16 t.current (iy.toNat % 32 * 32 + ix % 32)
            else 0xFFFF#16
          | none => 0xFFFF#16))))

/-- The tile of a staging slot in use is STAGING or RESCANNING by the slot's mode, no key is in two slots, and a tile is
in those states only while a slot holds it: every step keeps this (R3, R7). -/
def Obligations.TileStatesFollowSlots : Prop :=
  ∀ s t : State, SlotsAgree s → step s = .next t → SlotsAgree t

/-- No tile under a held strip is reopened (R3, R6, R9, R92): that every tile with dependents is SEALED is kept by every
step; and where that holds and the counts are exact, as `DependentsStayExact` says every step keeps them, every tile of
the relief that the recorded footprint of an ISSUED or FENCED strip covers is SEALED. -/
def Obligations.CoveredTilesStaySealed : Prop :=
  (∀ s t : State, CoveredSealed s → step s = .next t → CoveredSealed t) ∧
  ∀ s : State, DependentsExact s → CoveredSealed s → HeldTilesSealed s

/-- Every tile's dependents count is the number of ISSUED and FENCED strips whose recorded footprint covers it, the strip
tables being in order, and every step keeps this (R6, R64, R66, R76, R77). -/
def Obligations.DependentsStayExact : Prop :=
  ∀ s t : State, DependentsExact s → step s = .next t → DependentsExact t

/-- Tile buffers, staging slots and cut maps keep their canonical form at every step: the model's representation
(log 9, log 26) of what R4, R7 and R33 hold. -/
def Obligations.StoresStayCanonical : Prop :=
  ∀ s t : State, StoresCanonical s → step s = .next t → StoresCanonical t

/-! ## Copies and cut maps -/

/-- DEFINE COPY (R26, R28 to R30), its checks in order, the tuning values brought into range; and the end of the clear
(R31). A clear that ends in a slot that is not CLEARING changes nothing, and the map reads as the initial floor while it
is cleared: the model's choices (log 2, log 11). That the p and a kept for roughing start as those of the pass is its
reading (log 29). σ's two bytes and the order of the answer's values are its reading
(log 13, log 14). -/
def Obligations.DefineCopyAndClear : Prop :=
  (∀ (a : CopyArgs) (s : State),
    let sigma := 1048576 / a.k.toNat
    let limit := min 262143 a.limit.toNat
    let c : Copy :=
      { state := .clearing
        w := a.w.toNat
        h := a.h.toNat
        mapping := { ox := a.ox.toNat, oy := a.oy.toNat, sigma := sigma, k := a.k.toNat, z0 := a.z0.toNat,
                     limit := limit }
        f0 := min limit a.f0.toNat
        margin := min 31 a.margin.toNat
        tolerance := min 255 a.tolerance.toNat
        leaseTime := max 100 (min 60000 a.leaseTime.toNat)
        waitHold := a.waitHold.toNat
        stopOnSpoil := decide (a.stopOnSpoil ≠ 0#8)
        pass := { kind := .finish, stepDown := 1, allowance := 0 }
        kept := { stepDown := 1, allowance := 0 }
        planClosed := false
        counters := { spoil := 0, overcut := 0, stale := 0, stuck := 0, clamped := 0, held := 0 }
        floors := []
        queue := [] }
    let same := c.mapping.limit = a.limit.toNat ∧ c.f0 = a.f0.toNat ∧ c.margin = a.margin.toNat ∧
      c.tolerance = a.tolerance.toNat ∧ c.leaseTime = a.leaseTime.toNat
    exec (.defineCopy a) s = .next (s.ifTaken .plan (
      match slotOf a.slot with
      | none => s.replied .plan .badArg []
      | some k =>
        if s.relief.mw = 0 then s.replied .plan .badState []
        else if (s.copy k).state ≠ .free then s.replied .plan .badState []
        else if a.k.toNat < 256 ∨ 4096 < a.k.toNat ∨ a.w.toNat < 1 ∨ 2048 < a.w.toNat ∨ a.h.toNat < 1
            ∨ 2048 < a.h.toNat then s.replied .plan .badArg []
        else if (s.relief.mw - 1) * 1024 < a.ox.toNat * 1024 + (a.w.toNat - 1) * sigma
            ∨ (s.relief.mh - 1) * 1024 < a.oy.toNat * 1024 + (a.h.toNat - 1) * sigma then
          s.replied .plan .extent []
        else
          (s.replied .plan (if same then .ok else .clamped)
            (u8 k.val ++ u16 sigma ++ u16 c.mapping.ox ++ u16 c.mapping.oy ++ u16 c.w ++ u16 c.h ++ u16 c.mapping.k
              ++ u16 c.mapping.z0 ++ u24 c.mapping.limit ++ u24 c.f0 ++ u8 c.margin ++ u16 c.tolerance
              ++ u16 c.leaseTime ++ u16 c.waitHold ++ [if c.stopOnSpoil then 1#8 else 0#8])).setCopy k c))) ∧
  ∀ (k : CopySlot) (s : State),
    exec (.clearCompletion k) s = .next (
      if (s.copy k).state = .clearing then (s.setCopy k { s.copy k with state := .ready }).raise .plan 1 else s)

/-- SET PASS (R34, R58, R116, R117), refused outside READY and PAUSED and for another kind; p and a brought into range
and written with the kind, and those of roughing kept by a FINISH; on a PAUSED copy every ISSUED strip with nothing drawn that is not under merge is withdrawn,
WITHDRAWN latched on its holder's port, and then the spindles bound to the copy are evaluated and, where a computation was
abandoned, a grant tested. The order in which one request's strips leave is the model's free value (log 7). That the state
is checked before the kind, that the record has the p and a kept for roughing beside those last written, and the items of
the answer are the model's reading (log 12, log 29, log 14). -/
def Obligations.SetPassEffects : Prop :=
  (∀ (slot kind : Byte) (p a : Word) (s : State),
    let pass : Pass := { kind := if kind = 1#8 then .rough else .finish, stepDown := max 1 (min 4095 p.toNat),
                         allowance := min 4095 a.toNat }
    exec (.setPass slot kind p a) s = .next (s.ifTaken .plan (
      match slotOf slot with
      | none => s.replied .plan .badArg []
      | some k =>
        let st := (s.copy k).state
        let v := (s.replied .plan (if pass.stepDown = p.toNat ∧ pass.allowance = a.toNat then .ok else .clamped)
          ([kind] ++ u16 pass.stepDown ++ u16 pass.allowance)).setCopy k { s.copy k with
            pass := pass
            kept := if kind = 1#8 then ⟨pass.stepDown, pass.allowance⟩ else (s.copy k).kept }
        if st ≠ .ready ∧ st ≠ .paused then s.replied .plan .badState []
        else if kind ≠ 0#8 ∧ kind ≠ 1#8 then s.replied .plan .badArg []
        else if st = .ready then v
        else v.withdrawAll k))) ∧
  (∀ (s : State) (k : CopySlot), (∀ t ∈ (s.copy k).queue, s.withdrawable k t = false) → s.withdrawAll k = s) ∧
  (∀ (s : State) (k : CopySlot), (∃ t ∈ (s.copy k).queue, s.withdrawable k t = true) →
    ∃ ts : List Strip, ts.Perm ((s.copy k).queue.filter (s.withdrawable k)) ∧
      s.withdrawAll k = (ts.foldl (fun (v : State) t => v.withdraw k t) { s with choices := s.choices + 1 }).handOn
        ((s.boundTo k).map Chore.evaluate ++ if ts.any (fun t => s.computes (t.keyIn k)) then [.grant] else [])) ∧
  (∀ (s : State) (k : CopySlot) (t : Strip), s.withdrawable k t = true ↔
    t.state = .issued ∧ t.underMerge = false ∧ ∃ n, t.holder = some n ∧
      ∀ e ∈ (s.spindle n).queue.take (s.spindle n).readPos, e.key ≠ t.keyIn k) ∧
  (∀ (s : State) (k : CopySlot), (s.boundTo k).Nodup ∧ ∀ n, n ∈ s.boundTo k ↔ (s.spindle n).bound = some k) ∧
  (∀ (s : State) (key : StripKey), s.computes key = true ↔ ∃ c, s.engine.inFlight = some c ∧ c.key = key) ∧
  ∀ (s : State) (k : CopySlot) (t : Strip) (n : SpindleId), t.holder = some n →
    s.withdraw k t = (s.leave k t true).raise (.spindle n) 5

/-- START PASS, PAUSE COPY and RESUME COPY (R36 to R38): refused in every other state, EMPTY with no live strip; a resume
with a closed plan and no live strip completes the pass, and any other evaluates the bound spindles. -/
def Obligations.StartPauseResume : Prop :=
  ∀ (slot : Byte) (s : State),
    exec (.startPass slot) s = .next (s.ifTaken .plan (
      match slotOf slot with
      | none => s.replied .plan .badArg []
      | some k =>
        if (s.copy k).state ≠ .ready then s.replied .plan .badState []
        else if (s.copy k).queue = [] then s.replied .plan .empty []
        else (s.replied .plan .ok []).setCopy k { s.copy k with state := .cutting })) ∧
    exec (.pauseCopy slot) s = .next (s.ifTaken .plan (
      match slotOf slot with
      | none => s.replied .plan .badArg []
      | some k =>
        if (s.copy k).state ≠ .cutting then s.replied .plan .badState []
        else (s.replied .plan .ok []).setCopy k { s.copy k with state := .paused })) ∧
    exec (.resumeCopy slot) s = .next (s.ifTaken .plan (
      match slotOf slot with
      | none => s.replied .plan .badArg []
      | some k =>
        if (s.copy k).state ≠ .paused then s.replied .plan .badState []
        else if (s.copy k).planClosed = true ∧ (s.copy k).queue = [] then
          ((s.replied .plan .ok []).setCopy k { s.copy k with state := .ready, planClosed := false }).raise .plan 2
        else
          ((s.replied .plan .ok []).setCopy k { s.copy k with state := .cutting }).handOn
            ((s.boundTo k).map Chore.evaluate)))

/-- CLOSE COPY (R32, R39, R40, R109, R139): refused in FREE, and with HELD while a strip is ISSUED or a merge writes the
map; otherwise the slot is FREE, its held strips leave their holders and their tiles, its spindles are unbound, its
departed entries are gone, a computation of it is abandoned and a grant then tested. R40 leaves the other fields of a
freed slot without a meaning: that the model has them 0 is its choice (log 16). -/
def Obligations.CloseCopyEffects : Prop :=
  ∀ (slot : Byte) (s : State),
    (slotOf slot = none → exec (.closeCopy slot) s = .next (s.ifTaken .plan (s.replied .plan .badArg []))) ∧
    ∀ k, slotOf slot = some k →
      let held := (s.copy k).queue.filter fun t => decide (t.state ≠ .planned)
      let lost (n : SpindleId) (key : StripKey) : Bool :=
        held.any fun t => decide (t.holder = some n) && decide (t.keyIn k = key)
      ((s.copy k).state = .free →
        exec (.closeCopy slot) s = .next (s.ifTaken .plan (s.replied .plan .badState []))) ∧
      ((s.copy k).state ≠ .free →
        (∃ t ∈ (s.copy k).queue, t.state = .issued) ∨
          (∃ n m, (s.spindle n).merge = some m ∧ m.key.copy = k) →
        exec (.closeCopy slot) s = .next (s.ifTaken .plan (s.replied .plan .held []))) ∧
      ((s.copy k).state ≠ .free → (∀ t ∈ (s.copy k).queue, t.state ≠ .issued) →
        (∀ n m, (s.spindle n).merge = some m → m.key.copy ≠ k) → ∃ v : State,
        exec (.closeCopy slot) s = .next (s.ifTaken .plan
          (if held.any (fun t => s.computes (t.keyIn k)) then v.grantTest else v)) ∧
        v.port .plan = (s.replied .plan .ok []).port .plan ∧ (∀ q, q ≠ .plan → v.port q = s.port q) ∧
        v.staging = s.staging ∧ v.inReset = s.inReset ∧ v.choices = s.choices ∧ v.pending = s.pending ∧
        v.copy k = Copy.free ∧ (∀ j, j ≠ k → v.copy j = s.copy j) ∧
        (v.relief.mw = s.relief.mw ∧ v.relief.mh = s.relief.mh ∧ v.relief.sealedCount = s.relief.sealedCount ∧
          v.relief.wanted = s.relief.wanted) ∧
        (∀ i : Nat, v.relief.tiles[i]? = (s.relief.tiles[i]?).map fun u =>
          { u with dependents := u.dependents - held.countP fun t => match t.footprint with
            | some fp => fp.covers (i % s.relief.tw) (i / s.relief.tw)
            | none => false }) ∧
        (v.engine.pointer = s.engine.pointer ∧ v.engine.inFlight =
          if held.any (fun t => s.computes (t.keyIn k)) then none else s.engine.inFlight) ∧
        ∀ n, v.spindle n = { s.spindle n with
          bound := if (s.spindle n).bound = some k then none else (s.spindle n).bound
          issued := (s.spindle n).issued.filter fun h => !lost n h.key
          queue := (s.spindle n).queue.filter fun e => !lost n e.key
          readPos := if held.any (fun t => decide (t.holder = some n)) then
              (((s.spindle n).queue.take (s.spindle n).readPos).filter fun e => !lost n e.key).length
            else (s.spindle n).readPos
          departed := (s.spindle n).departed.filter fun d => decide (d.key.copy ≠ k) })

/-- BIND SPINDLE and UNBIND SPINDLE (R41, R42, R126, R127): a bind is refused for a FREE or CLEARING copy and for a
spindle with an ISSUED strip; an unbind fences the spindle's ISSUED strips and latches FENCED on both ports if there was
one. -/
def Obligations.BindAndUnbind : Prop :=
  ∀ (spindle slot : Byte) (s : State),
    exec (.bindSpindle spindle slot) s = .next (s.ifTaken .plan (
      match spindleOf spindle, slotOf slot with
      | some n, some k =>
        if (s.copy k).state = .free ∨ (s.copy k).state = .clearing then s.replied .plan .badState []
        else if s.issuedStrips n ≠ [] then s.replied .plan .badState []
        else (s.replied .plan .ok []).setSpindle n { s.spindle n with bound := some k }
      | _, _ => s.replied .plan .badArg [])) ∧
    (spindleOf spindle = none →
      exec (.unbindSpindle spindle) s = .next (s.ifTaken .plan (s.replied .plan .badArg []))) ∧
    ∀ n, spindleOf spindle = some n →
      let hs := s.issuedStrips n
      ∃ v : State, exec (.unbindSpindle spindle) s = .next (s.ifTaken .plan
          (if hs = [] then v else (v.raise (.spindle n) 4).raise .plan 3)) ∧
        v.ports = (s.replied .plan .ok []).ports ∧ v.relief = s.relief ∧ v.staging = s.staging ∧
        v.engine = s.engine ∧ v.inReset = s.inReset ∧ v.choices = s.choices ∧ v.pending = s.pending ∧
        (∀ k, v.copy k = { s.copy k with
          queue := (s.copy k).queue.map fun t =>
            if names hs k t.index then { t with state := .fenced, lease := none } else t }) ∧
        (∀ j, j ≠ n → v.spindle j = s.spindle j) ∧
        v.spindle n = { s.spindle n with
          bound := none
          issued := (s.spindle n).issued.map fun h =>
            if hs.any (fun g => decide (g.key = h.key)) ∧ h.status = .awaiting then { h with status := .void }
            else h }

/-- READ FLOORS and READ COPY (R26, R43 to R45): their checks in order; floors as the cut map has them; the state of a
copy, every field of its record, the six counters, the numbers of its PLANNED, ISSUED and FENCED strips and the set of
spindles bound to it; all but the state 0 for a FREE slot; a set zero flag zeroes the counters of a slot in use and
nothing else. The order of READ COPY's items and the widths no rule gives are the model's reading (log 13, log 14). -/
def Obligations.ReadFloorsAndCopy : Prop :=
  ∀ (slot : Byte) (cy c0 : Word) (count zero : Byte) (s : State),
    exec (.readFloors slot cy c0 count) s = .next (s.ifTaken .plan (
      match slotOf slot with
      | none => s.replied .plan .badArg []
      | some k =>
        if (s.copy k).state = .free ∨ (s.copy k).state = .clearing then s.replied .plan .badState []
        else if (s.copy k).h ≤ cy.toNat ∨ count.toNat < 1 ∨ 64 < count.toNat ∨
            (s.copy k).w < c0.toNat + count.toNat then s.replied .plan .badArg []
        else s.replied .plan .ok ((List.range' c0.toNat count.toNat).flatMap fun cx =>
          u24 ((s.copy k).floor cx cy.toNat)))) ∧
    exec (.readCopy slot zero) s = .next (s.ifTaken .plan (
      match slotOf slot with
      | none => s.replied .plan .badArg []
      | some k =>
        if (s.copy k).state = .free then s.replied .plan .ok (List.replicate 54 0#8)
        else
          let c := s.copy k
          let n := c.counters
          let number (st : StripState) : Nat := c.queue.countP fun t => decide (t.state = st)
          let bound (j : SpindleId) : Nat := if (s.spindle j).bound = some k then 2 ^ j.val else 0
          let v := s.replied .plan .ok (
            (match c.state with
              | .free => [0x00#8]
              | .clearing => [0x01#8]
              | .ready => [0x02#8]
              | .cutting => [0x03#8]
              | .paused => [0x04#8])
            ++ u16 c.mapping.ox ++ u16 c.mapping.oy ++ u16 c.w ++ u16 c.h ++ u16 c.mapping.k
            ++ u16 c.mapping.sigma ++ u16 c.mapping.z0 ++ u24 c.mapping.limit ++ u24 c.f0 ++ u8 c.margin
            ++ u16 c.tolerance ++ u16 c.leaseTime ++ u16 c.waitHold ++ [if c.stopOnSpoil then 1#8 else 0#8]
            ++ [if c.pass.kind = .rough then 1#8 else 0#8] ++ u16 c.pass.stepDown ++ u16 c.pass.allowance
            ++ [if c.planClosed then 1#8 else 0#8]
            ++ u16 n.spoil ++ u16 n.overcut ++ u16 n.stale ++ u16 n.stuck ++ u16 n.clamped ++ u16 n.held
            ++ u16 (number .planned) ++ u16 (number .issued) ++ u16 (number .fenced)
            ++ u8 (bound 0 + bound 1 + bound 2 + bound 3 + bound 4 + bound 5))
          if zero = 0#8 then v
          else v.setCopy k { c with
            counters := { spoil := 0, overcut := 0, stale := 0, stuck := 0, clamped := 0, held := 0 } }))

/-- A copy changes its state only as R27 lists, and only by the commands R27 names, beside the resets of R46 and R47. -/
def Obligations.CopyStateMoves : Prop :=
  ∀ (c : Instr) (s t : State) (k : CopySlot), exec c s = .next t → (t.copy k).state ≠ (s.copy k).state →
    copyMove (s.copy k).state (t.copy k).state c = true

/-- A floor never decreases at any step, as long as the map can be read after it (R33, R44). -/
def Obligations.FloorsNeverRise : Prop :=
  ∀ (s t : State) (k : CopySlot) (cx cy : Nat), step s = .next t →
    (t.copy k).state ≠ .free → (t.copy k).state ≠ .clearing → (s.copy k).floor cx cy ≤ (t.copy k).floor cx cy

/-! ## Target arithmetic -/

/-- Every target lies between the cell's floor and the larger of that floor and the floor limit (R60), and what it is: a
cell is HELD exactly where a sample that carries weight is missing (R52); elsewhere the final target t is the scaled depth
plus z0, or L where that is more, and the cell is CLAMPED exactly then (R53 to R55), and NOTHING exactly where the floor
has reached the goal, t - a in a ROUGH pass and t in a FINISH pass (R57, R58); a HELD or NOTHING cell's target is the
floor; a FINISH cut is t, past the floor and within the limit; a ROUGH cut is the smaller of f + p and the goal, past the
floor and within the goal; and all within 0 to 262143. -/
def Obligations.TargetBound : Prop :=
  ∀ (r : Relief) (m : Mapping) (p : Pass) (cx cy f : Nat),
    let e := cellTarget r m p cx cy f
    let ws := weightedSamples r m cx cy
    let unlimited := scaleDepth (interpolate ws) m.k + m.z0
    let t := min m.limit unlimited
    let goal := if p.kind = .finish then t else t - p.allowance
    f ≤ e.target ∧ e.target ≤ max f m.limit ∧
    (e.held = true ↔ ∃ x ∈ ws, 0 < x.1 ∧ x.2 = 0xFFFF#16) ∧
    (e.held = true → finalTarget r m cx cy = none ∧ e.clamped = false ∧ e.nothing = false) ∧
    (e.held = false → finalTarget r m cx cy = some (t, decide (m.limit < unlimited)) ∧
      e.clamped = decide (m.limit < unlimited) ∧ (e.nothing = true ↔ goal ≤ f)) ∧
    (e.held = true ∨ e.nothing = true → e.target = f) ∧
    (e.held = false → e.nothing = false →
      (p.kind = .finish → e.target = t ∧ f < t) ∧
      (p.kind = .rough → e.target = min (f + p.stepDown) (t - p.allowance) ∧ (1 ≤ p.stepDown → f < e.target) ∧
        e.target ≤ t - p.allowance)) ∧
    (f ≤ 262143 → m.limit ≤ 262143 → e.target ≤ 262143)

/-- The scaled depth (R54): rounded half up, within 0 to 262136, and its values at the scales the rule names. -/
def Obligations.ScaledDepth : Prop :=
  (∀ d k, scaleDepth d k = (d * k + 512) / 1024) ∧
  (∀ d k, d ≤ 65534 → k ≤ 4096 → scaleDepth d k ≤ 262136) ∧ scaleDepth 65534 4096 = 262136 ∧
  (∀ d, scaleDepth d 1024 = d) ∧ (∀ d, scaleDepth d 2048 = 2 * d) ∧
  (∀ h, (2 * h + 1) * 1536 % 1024 = 512 ∧ scaleDepth (2 * h + 1) 1536 = (2 * h + 1) * 1536 / 1024 + 1) ∧
  scaleDepth 1001 1536 = 1502

/-- The position of a cell (R49), its four samples, as R4 shows them, with an index past the last column or row replaced
by the last (R50), their weights (R51) and the interpolated depth, rounded half up (R53). The weights sum to 1 048 576,
the first is never 0 (R51), a sample past the last column or row has weight 0 (R50), and where the cell is not held the
interpolated depth lies between the samples that carry weight (R53). -/
def Obligations.InterpolationBounds : Prop :=
  ∀ (r : Relief) (m : Mapping) (cx cy : Nat),
    let ws := weightedSamples r m cx cy
    let x := m.ox * 1024 + cx * m.sigma
    let y := m.oy * 1024 + cy * m.sigma
    let ix := x / 1024
    let iy := y / 1024
    let fx := x % 1024
    let fy := y % 1024
    let ix1 := if ix + 1 = r.mw then r.mw - 1 else ix + 1
    let iy1 := if iy + 1 = r.mh then r.mh - 1 else iy + 1
    ws = [((1024 - fx) * (1024 - fy), r.sample ix iy), (fx * (1024 - fy), r.sample ix1 iy),
      ((1024 - fx) * fy, r.sample ix iy1), (fx * fy, r.sample ix1 iy1)] ∧
    (∀ i j, r.sample i j = match r.tile? ⟨i / 32, j / 32⟩ with
      | some t => if t.state = .sealed ∨ t.state = .rescanning then Cells.read 0xFFFF#16 t.current (j % 32 * 32 + i % 32)
        else 0xFFFF#16
      | none => 0xFFFF#16) ∧
    interpolate ws = ((ws.map fun e => e.1 * e.2.toNat).sum + 524288) / 1048576 ∧
    (ws.map Prod.fst).sum = 1048576 ∧ (∀ e, ws.head? = some e → 0 < e.1) ∧
    (x ≤ (r.mw - 1) * 1024 → ix + 1 = r.mw → ∀ i e, (i = 1 ∨ i = 3) → ws[i]? = some e → e.1 = 0) ∧
    (y ≤ (r.mh - 1) * 1024 → iy + 1 = r.mh → ∀ i e, (i = 2 ∨ i = 3) → ws[i]? = some e → e.1 = 0) ∧
    ∀ lo hi, heldByNr ws = false → (∀ e ∈ ws, 0 < e.1 → lo ≤ e.2.toNat ∧ e.2.toNat ≤ hi) →
      lo ≤ interpolate ws ∧ interpolate ws ≤ hi ∧ interpolate ws ≤ 65534

/-! ## Plans -/

/-- LOAD PLAN (R68 to R71, R81): its checks in order; the descriptors taken one after another, each dropped, clipped or
accepted at the lowest unused index; the END mark closes the plan; what it hands on in CUTTING. The two bytes of each
count of descriptors are the model's reading (log 13). -/
def Obligations.LoadPlanEffects : Prop :=
  (∀ (slot : Byte) (ds : List Descriptor) (s : State),
    exec (.loadPlan slot ds) s = .next (s.ifTaken .plan (
      if ds.length < 1 ∨ 32 < ds.length then s.replied .plan .badFrame []
      else match slotOf slot with
        | none => s.replied .plan .badArg []
        | some k =>
          if (s.copy k).state = .free ∨ (s.copy k).state = .clearing then s.replied .plan .badState []
          else if (s.copy k).planClosed = true then s.replied .plan .closed []
          else if ds.dropLast.any Descriptor.endMark then s.replied .plan .badArg []
          else
            let taken := ds.foldl takeDescriptor
              (s.copy k, { accepted := 0, clipped := 0, outOfExtent := 0, overflow := 0 })
            let closes := (ds.getLast?.map Descriptor.endMark).getD false
            let c := { taken.1 with planClosed := closes }
            let n := taken.2
            let v := (s.replied .plan .ok (u16 n.accepted ++ u16 n.clipped ++ u16 n.outOfExtent ++ u16 n.overflow
              ++ u16 c.queue.length ++ [if closes then 1#8 else 0#8])).setCopy k c
            if c.state ≠ .cutting then v
            else if closes = true ∧ c.queue = [] then
              (v.setCopy k { c with state := .ready, planClosed := false }).raise .plan 2
            else if 1 ≤ n.accepted then v.handOn ((s.boundTo k).map Chore.evaluate)
            else v))) ∧
  ∀ (c : Copy) (n : LoadCounts) (d : Descriptor),
    let given := if d.lengthCode = 0#8 then 256 else d.lengthCode.toNat
    let clips := c.w < d.first.toNat + given
    let n' := if clips then { n with clipped := n.clipped + 1 } else n
    (c.h ≤ d.row.toNat ∨ c.w ≤ d.first.toNat →
      takeDescriptor (c, n) d = (c, { n with outOfExtent := n.outOfExtent + 1 })) ∧
    (d.row.toNat < c.h → d.first.toNat < c.w → 4096 ≤ c.queue.length →
      takeDescriptor (c, n) d = (c, { n' with overflow := n'.overflow + 1 })) ∧
    (d.row.toNat < c.h → d.first.toNat < c.w → c.queue.length < 4096 → ∃ i,
      (∀ t ∈ c.queue, t.index ≠ i) ∧ (∀ j, j < i → ∃ t ∈ c.queue, t.index = j) ∧ i < 4096 ∧
      takeDescriptor (c, n) d =
        ({ c with queue := c.queue ++ [
          { index := i
            row := d.row.toNat
            first := d.first.toNat
            length := if clips then c.w - d.first.toNat else given
            direction := d.direction
            state := .planned
            holder := none
            issue := 0#8
            retry := 0
            footprint := none
            lease := none
            underMerge := false }] }, { n' with accepted := n'.accepted + 1 }))

/-- CLEAR PLAN and READ STRIP (R66, R73, R83): every PLANNED strip removed and the plan open; a strip read by index or by
position, changing no state: the items of R83's table and the numbers of PLANNED, ISSUED and FENCED strips; for an unused
slot or a position past the end, UNUSED, the queue length and those numbers, the other items 0. The widths no rule gives,
the 0 of the plan-closed flag there and the place of the numbers are the model's reading (log 13, log 14, log 23,
log 27). -/
def Obligations.ClearPlanAndReadStrip : Prop :=
  ∀ (slot selector : Byte) (value : Word) (s : State),
    let number (k : CopySlot) (st : StripState) : Nat := (s.copy k).queue.countP fun t => decide (t.state = st)
    let numbers (k : CopySlot) : List Byte :=
      u16 (number k .planned) ++ u16 (number k .issued) ++ u16 (number k .fenced)
    exec (.clearPlan slot) s = .next (s.ifTaken .plan (
      match slotOf slot with
      | none => s.replied .plan .badArg []
      | some k =>
        if (s.copy k).state = .free ∨ (s.copy k).state = .clearing then s.replied .plan .badState []
        else
          let kept := (s.copy k).queue.filter fun t => decide (t.state ≠ .planned)
          (s.replied .plan .ok (u16 ((s.copy k).queue.length - kept.length) ++ u16 kept.length)).setCopy k
            { s.copy k with queue := kept, planClosed := false })) ∧
    exec (.readStrip slot selector value) s = .next (s.ifTaken .plan (
      match slotOf slot with
      | none => s.replied .plan .badArg []
      | some k =>
        if selector ≠ 0#8 ∧ selector ≠ 1#8 then s.replied .plan .badArg []
        else if 4095 < value.toNat then s.replied .plan .badArg []
        else if (s.copy k).state = .free ∨ (s.copy k).state = .clearing then s.replied .plan .badState []
        else match (if selector = 0#8 then (s.copy k).queue.find? fun t => decide (t.index = value.toNat)
            else (s.copy k).queue[value.toNat]?) with
          | some t => s.replied .plan .ok (
              (match t.state with
                | .planned => [0x01#8]
                | .issued => [0x02#8]
                | .fenced => [0x03#8])
              ++ u16 t.index ++ u16 ((s.copy k).queue.findIdx fun u => decide (u.index = t.index))
              ++ u16 t.row ++ u16 t.first ++ u16 t.length ++ [if t.direction = .reverse then 1#8 else 0#8]
              ++ (match t.holder with
                | none => [0x00#8]
                | some n => u8 (n.val + 1))
              ++ [t.issue] ++ u8 t.retry
              ++ (match t.footprint with
                | none => [0x00#8, 0x00#8, 0x00#8, 0x00#8]
                | some fp => u8 fp.tx0 ++ u8 fp.ty0 ++ u8 fp.tx1 ++ u8 fp.ty1)
              ++ u16 (match t.lease with
                | some l => l.remaining
                | none => 0)
              ++ u16 (s.copy k).queue.length ++ [if (s.copy k).planClosed then 1#8 else 0#8] ++ numbers k)
          | none => s.replied .plan .ok (List.replicate 21 0#8 ++ u16 (s.copy k).queue.length ++ [0#8]
              ++ numbers k)))

/-! ## Issue and zones -/

/-- TAKE STRIP (R88, R92 to R95), its cases in order: refused, told to wait, issued the strip the search finds, or
answered with the reason it found none, the wanted tile and the hold of SCAN origin among its effects. -/
def Obligations.TakeStripAnswers : Prop :=
  ∀ (n : SpindleId) (s : State),
    let p := PortId.spindle n
    let sp := s.spindle n
    exec (.takeStrip n) s = .next (s.ifTaken p (
      match sp.bound with
      | none => s.replied p .unbound []
      | some k =>
        if (s.copy k).state = .paused then s.replied p .wait [0x03#8]
        else if (s.copy k).state ≠ .cutting then s.replied p .badState []
        else if 2 ≤ sp.issued.length then s.replied p .limit []
        else if 0 < sp.holdRemaining then
          s.replied p .holding (u16 sp.holdRemaining ++ [if sp.holdOrigin = .scan then 1#8 else 0#8])
        else match s.search n k with
          | some t =>
            (s.replied p .ok (u8 k.val ++ u16 t.index ++ [t.issue + 1#8] ++ u16 t.row ++ u16 t.first
              ++ u16 t.length ++ [if t.direction = .reverse then 1#8 else 0#8])).issue n k t
          | none =>
            if ∀ t ∈ (s.copy k).queue, t.state ≠ .planned then s.replied p .wait [0x00#8]
            else match (s.tileFailure n k).bind (s.missingTile k) with
              | none => s.replied p .wait [0x02#8]
              | some key =>
                let hold := (s.copy k).waitHold
                let v := s.replied p .wait ([0x01#8] ++ u8 key.tx ++ u8 key.ty ++ u16 hold)
                let v1 := if s.relief.wanted = some key then v
                  else (v.setRelief { s.relief with wanted := some key }).raise .scan 3
                if hold = 0 then v1
                else (v1.setSpindle n { sp with holdRemaining := hold, holdOrigin := .scan }).raise p 2))

/-- The search and the issue (R75, R76, R89, R90, R92 to R94, R122): the search finds the first PLANNED strip, in queue
order, that passes the zone test and the tile test; the strip that fails on tiles alone is the first PLANNED one that
passes the zone test and not the tile test, and the tile it waits for is the first of its footprint in row-major order
that is not SEALED; the issue makes a strip ISSUED with the next issue number, the footprint and a full running lease,
counts its tiles and puts it at the tail of the list as AWAITING; the issue to a TAKE STRIP then tests a grant. That
nothing comes between that issue and its grant is the model's choice (log 7). -/
def Obligations.IssueEffects : Prop :=
  let sealedAt (s : State) (tx ty : Nat) : Prop := ∃ u, s.relief.tile? ⟨tx, ty⟩ = some u ∧ u.state = .sealed
  (∀ (s : State) (n : SpindleId) (k : CopySlot) (t : Strip), s.search n k = some t →
    ∃ before after, (s.copy k).queue = before ++ t :: after ∧ t.state = .planned ∧
      (s.copy k).zoneFree n t = true ∧ s.tilesSealed k t = true ∧
      ∀ u ∈ before, u.state = .planned → (s.copy k).zoneFree n u = false ∨ s.tilesSealed k u = false) ∧
  (∀ (s : State) (n : SpindleId) (k : CopySlot), s.search n k = none →
    ∀ u ∈ (s.copy k).queue, u.state = .planned → (s.copy k).zoneFree n u = false ∨ s.tilesSealed k u = false) ∧
  (∀ (c : Copy) (n : SpindleId) (t : Strip), c.zoneFree n t = true ↔
    ∀ u ∈ c.queue, u.state ≠ .planned → u.holder ≠ some n → (zoneOf c t).meets (zoneOf c u) = false) ∧
  (∀ (s : State) (k : CopySlot) (t : Strip), s.tilesSealed k t = true ↔
    ∀ tx ty, (s.footprintOf k t).covers tx ty = true → sealedAt s tx ty) ∧
  (∀ (s : State) (n : SpindleId) (k : CopySlot) (t : Strip), s.tileFailure n k = some t →
    ∃ before after, (s.copy k).queue = before ++ t :: after ∧ t.state = .planned ∧
      (s.copy k).zoneFree n t = true ∧ s.tilesSealed k t = false ∧
      ∀ u ∈ before, u.state = .planned → (s.copy k).zoneFree n u = false ∨ s.tilesSealed k u = true) ∧
  (∀ (s : State) (n : SpindleId) (k : CopySlot), s.tileFailure n k = none →
    ∀ u ∈ (s.copy k).queue, u.state = .planned → (s.copy k).zoneFree n u = false ∨ s.tilesSealed k u = true) ∧
  (∀ (s : State) (k : CopySlot) (t : Strip) (x : TileKey), s.missingTile k t = some x →
    (s.footprintOf k t).covers x.tx x.ty = true ∧ ¬ sealedAt s x.tx x.ty ∧
    ∀ tx ty, (s.footprintOf k t).covers tx ty = true → ty < x.ty ∨ ty = x.ty ∧ tx < x.tx → sealedAt s tx ty) ∧
  (∀ (s : State) (k : CopySlot) (t : Strip), s.missingTile k t = none →
    ∀ tx ty, (s.footprintOf k t).covers tx ty = true → sealedAt s tx ty) ∧
  ∀ (s : State) (n : SpindleId) (k : CopySlot) (t : Strip),
    let fp := s.footprintOf k t
    let v := s.issueStrip n k t
    s.issue n k t = v.grantTest ∧
      Keeps s v { relief := true, copies := [k], spindles := [n] } ∧
      v.copy k = { s.copy k with
        queue := (s.copy k).queue.map fun u => if u.index = t.index then
          { u with
            state := .issued
            holder := some n
            issue := u.issue + 1#8
            footprint := some fp
            lease := some { remaining := (s.copy k).leaseTime, running := true }
            underMerge := false } else u } ∧
      v.spindle n = { s.spindle n with
        issued := (s.spindle n).issued ++
          [{ key := { copy := k, index := t.index, issue := t.issue + 1#8 }, status := .awaiting }] } ∧
      v.relief = { s.relief with
        tiles := s.relief.tiles.mapIdx fun i u =>
          if fp.covers (i % s.relief.tw) (i / s.relief.tw) then { u with dependents := u.dependents + 1 } else u }

/-- A strip leaves the held states (R6, R77, R87, R109, R111, R139): its record released in place, its tiles' counts lowered,
its entries and its place in the list gone from the holder, who keeps a departed entry unless the copy is closed, the
oldest of five leaving first; the read position stays on the same next entry; a computation for it is abandoned. -/
def Obligations.LeaveEffects : Prop :=
  ∀ (s : State) (k : CopySlot) (t : Strip) (n : SpindleId) (fp : Footprint) (record : Bool),
    t.holder = some n → t.footprint = some fp →
    let key : StripKey := { copy := k, index := t.index, issue := t.issue }
    let v := s.leave k t record
    let sp := s.spindle n
    Keeps s v { relief := true, engine := true, copies := [k], spindles := [n] } ∧
    v.copy k = { s.copy k with
      queue := (s.copy k).queue.map fun u => if u.index = t.index then
        { u with state := .planned, holder := none, footprint := none, lease := none, underMerge := false } else u } ∧
    v.relief = { s.relief with
      tiles := s.relief.tiles.mapIdx fun i u =>
        if fp.covers (i % s.relief.tw) (i / s.relief.tw) then { u with dependents := u.dependents - 1 } else u } ∧
    v.engine.pointer = s.engine.pointer ∧
    v.engine.inFlight = s.engine.inFlight.filter (fun c => decide (c.key ≠ key)) ∧
    v.spindle n = { sp with
      issued := sp.issued.filter fun h => decide (h.key ≠ key)
      queue := sp.queue.filter fun e => decide (e.key ≠ key)
      readPos := (v.spindle n).readPos
      departed := (v.spindle n).departed } ∧
    ((v.spindle n).queue.take (v.spindle n).readPos = (sp.queue.take sp.readPos).filter fun e => decide (e.key ≠ key)) ∧
    ((v.spindle n).queue.drop (v.spindle n).readPos = (sp.queue.drop sp.readPos).filter fun e => decide (e.key ≠ key)) ∧
    (record = false → (v.spindle n).departed = sp.departed) ∧
    (record = true → (v.spindle n).departed =
      (sp.departed ++ [({ key := key, geometry := t.geometry } : Departed)]).drop (sp.departed.length + 1 - 4))

/-- The size of a footprint and what it covers (R62, R90): every one of the four master samples of every cell of the strip
lies in a tile of it; it spans at most two rows and 33 columns of tiles, 66 in all; its tiles in row-major order are
those it covers. -/
def Obligations.FootprintCovers : Prop :=
  ∀ (r : Relief) (m : Mapping) (row first length : Nat), 1 ≤ length → length ≤ 256 → m.sigma ≤ 4096 →
    1 ≤ r.mw → 1 ≤ r.mh →
    m.x (first + length - 1) ≤ (r.mw - 1) * 1024 → m.y row ≤ (r.mh - 1) * 1024 →
    let fp := footprintOf r m row first length
    (∀ cx, first ≤ cx → cx < first + length →
      ∀ ix ∈ [m.x cx / 1024, lastIndex r.mw (m.x cx / 1024 + 1)],
      ∀ iy ∈ [m.y row / 1024, lastIndex r.mh (m.y row / 1024 + 1)], fp.covers (ix / 32) (iy / 32) = true) ∧
    (∀ key, key ∈ fp.tiles ↔ fp.covers key.tx key.ty = true) ∧
    fp.tiles.Pairwise (fun a b => a.ty < b.ty ∨ a.ty = b.ty ∧ a.tx < b.tx) ∧
    fp.ty0 ≤ fp.ty1 ∧ fp.ty1 ≤ fp.ty0 + 1 ∧ fp.tx0 ≤ fp.tx1 ∧ fp.tx1 ≤ fp.tx0 + 32 ∧ fp.tiles.length ≤ 66

/-- Two zones of one copy meet exactly when the strips are within 2m of each other both in row and in column: the
clipping never decides (R91). -/
def Obligations.ZonesMeet : Prop :=
  ∀ (c : Copy) (t u : Strip), t.row < c.h → u.row < c.h → 1 ≤ t.length → 1 ≤ u.length →
    t.first + t.length ≤ c.w → u.first + u.length ≤ c.w →
    ((zoneOf c t).meets (zoneOf c u) = true ↔
      (t.row ≤ u.row + 2 * c.margin ∧ u.row ≤ t.row + 2 * c.margin) ∧
      (t.first ≤ u.first + u.length - 1 + 2 * c.margin ∧ u.first ≤ t.first + t.length - 1 + 2 * c.margin))

/-- In every copy the zones of two strips held by different spindles do not meet, and every step keeps this (R89, R91). -/
def Obligations.ZonesStayApart : Prop :=
  ∀ s t : State, ZonesApart s → step s = .next t → ZonesApart t

/-! ## The engine and the queues -/

/-- The grant (R104, R105, R107): nothing with the engine busy or no AWAITING strip; otherwise a STARVING spindle if there
is one, within its class the first in the order of numbers after the pointer, and its oldest AWAITING strip starts with
the copy's values as they stand. -/
def Obligations.GrantChoice : Prop :=
  let rank (s : State) (n : SpindleId) : Nat := (n - s.engine.pointer - 1 : Fin 6).val
  let starving (s : State) (n : SpindleId) : Prop := (s.spindle n).queue.length ≤ (s.spindle n).readPos
  let waits (s : State) (n : SpindleId) : Prop := ∃ h ∈ (s.spindle n).issued, h.status = .awaiting
  (∀ s : State, s.engine.inFlight ≠ none → s.grantTest = s) ∧
  (∀ s : State, (∀ n, ¬ waits s n) → s.grantTest = s) ∧
  ∀ (s : State) (n : SpindleId), s.engine.inFlight = none → waits s n →
    (∀ j h, h ∈ (s.spindle j).issued → s.strip? h.key ≠ none) →
    ∃ j h t before after, (s.spindle j).issued = before ++ h :: after ∧ h.status = .awaiting ∧
      (∀ g ∈ before, g.status ≠ .awaiting) ∧ s.strip? h.key = some t ∧
      (starving s n → starving s j ∧ rank s j ≤ rank s n) ∧
      (¬ starving s n → starving s j ∨ rank s j ≤ rank s n) ∧
      s.grantTest = (s.setSpindle j { s.spindle j with
          issued := (s.spindle j).issued.map fun g => if g.key = h.key then { g with status := .computing } else g }).setEngine
        { pointer := j
          inFlight := some
            { holder := j
              key := h.key
              mapping := (s.copy h.key.copy).mapping
              pass := (s.copy h.key.copy).pass
              nextColumn := if t.direction = .forward then t.first else t.first + t.length - 1
              made := 0 } }

/-- Hand-on work (R97, R99, R105, R106, R152): the pieces, and what they set off, are done one after another in some
order, each on the state the one before it left; the free value selects the order, and every order is selected by some
number. An evaluation issues the strip the search finds exactly where the five conditions of R97 hold, and sets off a
grant, which may come before or after the other pieces (R106); otherwise it changes nothing. A grant is the grant test; a
waiting report is decided as `ReportCutDecided` says of a report. Whatever the order, the work places no answer but that of a waiting report, latches nothing, sets no hold and no
wanted tile, and changes neither the queues' entries nor anything a copy holds beside the state, holder, issue number,
footprint, lease and merge mark of its strips. The order is the model's free value (log 7, log 20, log 30). -/
def Obligations.HandOnKeeps : Prop :=
  (∀ (s : State) (ts : List Chore),
    let v := s.handOn ts
    let u := { s with choices := s.choices + 1 }
    WorkDone u ts v ∧ v = workThrough (2 * ts.length) (Config.handOnOrder s.choices) u ts ∧
    (∀ w, WorkDone u ts w → ∃ c, workThrough (2 * ts.length) c u ts = w) ∧
    v.staging = s.staging ∧ v.inReset = s.inReset ∧ v.pending = s.pending ∧
    (v.relief.mw = s.relief.mw ∧ v.relief.mh = s.relief.mh ∧ v.relief.sealedCount = s.relief.sealedCount ∧
      v.relief.wanted = s.relief.wanted ∧
      v.relief.tiles.map (fun t => { t with dependents := 0 }) =
        s.relief.tiles.map (fun t => { t with dependents := 0 })) ∧
    (∀ k, { v.copy k with queue := [] } = { s.copy k with queue := [] } ∧
      (v.copy k).queue.map (fun t => (t.index, t.geometry, t.retry)) =
        (s.copy k).queue.map (fun t => (t.index, t.geometry, t.retry))) ∧
    (∀ n, { v.spindle n with issued := [], merge := none, waiting := none } =
      { s.spindle n with issued := [], merge := none, waiting := none }) ∧
    (∀ p, { v.port p with state := .idle, slot := none, delivered := false } =
      { s.port p with state := .idle, slot := none, delivered := false }) ∧
    v.port .plan = s.port .plan ∧ v.port .scan = s.port .scan ∧
    ∀ n, .report n ∉ ts → v.port (.spindle n) = s.port (.spindle n) ∧ (v.spindle n).merge = (s.spindle n).merge ∧
      (v.spindle n).waiting = (s.spindle n).waiting) ∧
  ∀ (s : State) (n : SpindleId),
    let sp := s.spindle n
    let evaluates (h : Held) (k : CopySlot) : Prop :=
      1 ≤ sp.threshold ∧
      (sp.issued = [h] ∧ h.status = .complete ∧ ∃ t, s.strip? h.key = some t ∧ t.state = .issued) ∧
      sp.queue.length - sp.readPos ≤ sp.threshold ∧
      sp.holdRemaining = 0 ∧
      sp.bound = some k ∧ (s.copy k).state = .cutting
    (∀ h k t, evaluates h k → s.search n k = some t →
      s.perform (.evaluate n) = s.issueStrip n k t ∧ s.setsOff (.evaluate n) = [.grant]) ∧
    (∀ h k, evaluates h k → s.search n k = none → s.perform (.evaluate n) = s ∧ s.setsOff (.evaluate n) = []) ∧
    ((∀ h k, ¬ evaluates h k) → s.perform (.evaluate n) = s ∧ s.setsOff (.evaluate n) = []) ∧
    s.perform .grant = s.grantTest ∧ s.setsOff .grant = [] ∧ s.setsOff (.report n) = [] ∧
    (sp.waiting = none → s.perform (.report n) = s) ∧
    (∀ r, sp.waiting = some r → s.perform (.report n) = (s.setSpindle n { sp with waiting := none }).decideReport n r) ∧
    ∀ r, sp.merge = none → exec (.reportCut n r.slot r.index r.issue r.floors) s =
      .next (s.ifTaken (.spindle n) ((s.working (.spindle n)).decideReport n r))

/-- COMPUTE_CELL (R59, R61, R107, R108): one entry at the tail of the holder's queue, computed from the floor and the
samples as they stand, the counters raised, STRIP_READY with the first entry; with the last the strip is COMPLETE, the
engine free, and the evaluation and the grant follow in either order. With the engine free the event changes nothing:
the model's choice (log 2). -/
def Obligations.ComputeCellEffects : Prop :=
  (∀ s : State, s.engine.inFlight = none → exec .computeCell s = .next s) ∧
  ∀ (s : State) (c : Computation) (t : Strip), s.engine.inFlight = some c → s.strip? c.key = some t →
    let n := c.holder
    let k := c.key.copy
    let ct := cellTarget s.relief c.mapping c.pass c.nextColumn t.row ((s.copy k).floor c.nextColumn t.row)
    let last := decide (t.length ≤ c.made + 1)
    let e : Entry :=
      { key := c.key
        column := c.nextColumn
        target := ct.target
        held := ct.held
        clamped := ct.clamped
        nothing := ct.nothing
        first := decide (c.made = 0)
        last := last }
    ∃ v : State, exec .computeCell s = .next (if last then v.handOn [.evaluate n, .grant] else v) ∧
      v.relief = s.relief ∧ v.staging = s.staging ∧ v.inReset = s.inReset ∧ v.choices = s.choices ∧
      v.pending = s.pending ∧ v.ports = (if c.made = 0 then s.raise (.spindle n) 1 else s).ports ∧
      (∀ j, j ≠ k → v.copy j = s.copy j) ∧
      v.copy k = { s.copy k with
        counters := { (s.copy k).counters with
          held := if ct.held then min 65535 ((s.copy k).counters.held + 1)
            else min 65535 (s.copy k).counters.held
          clamped := if ct.clamped then min 65535 ((s.copy k).counters.clamped + 1)
            else min 65535 (s.copy k).counters.clamped } } ∧
      (∀ j, j ≠ n → v.spindle j = s.spindle j) ∧
      v.spindle n = { s.spindle n with
        queue := (s.spindle n).queue ++ [e]
        issued := (s.spindle n).issued.map fun h =>
          if last = true ∧ h.key = c.key then { h with status := .complete } else h } ∧
      v.engine.pointer = s.engine.pointer ∧
      v.engine.inFlight = if last then none else some { c with
        made := c.made + 1
        nextColumn := if t.direction = .forward then t.first + (c.made + 1)
          else t.first + t.length - 1 - (c.made + 1) }

/-- DRAW TARGETS (R112, R123, R167): refused outside 1 to 32; returns entries from the read position on, eight bytes each, up
to the count, the end of the queue or the entry of a FENCED strip; LATE only where it returns none for such an entry; the leases of the strips
drawn from restarted; auto-prefetch evaluated where an entry was returned. The two bytes of the unread level are the
model's reading (log 13). -/
def Obligations.DrawTargetsEffects : Prop :=
  (∀ (n : SpindleId) (count : Byte) (s : State),
    let p := PortId.spindle n
    let sp := s.spindle n
    let es := s.drawn n count.toNat
    let left := sp.queue.length - (sp.readPos + es.length)
    let drawnFrom := sp.issued.filter fun h => es.any fun e => decide (e.key = h.key)
    let entry (e : Entry) : List Byte := u16 e.key.index ++ u16 e.column ++ u24 e.target ++
      u8 ((if e.held then 1 else 0) + (if e.clamped then 2 else 0) + (if e.nothing then 4 else 0)
        + (if e.first then 8 else 0) + (if e.last then 16 else 0))
    exec (.drawTargets n count) s = .next (s.ifTaken p (
      if count.toNat < 1 ∨ 32 < count.toNat then s.replied p .badArg []
      else if es = [] then s.replied p (if sp.readPos < sp.queue.length then .late else .ok) ([0#8] ++ u16 left)
      else
        (((s.replied p .ok (u8 es.length ++ es.flatMap entry ++ u16 left)).setSpindle n
          { sp with readPos := sp.readPos + es.length }).mapNamed drawnFrom fun c t =>
            { t with lease := t.lease.map fun l => { l with remaining := c.leaseTime } }).handOn [.evaluate n]))) ∧
  (∀ (s : State) (e : Entry), s.entryFenced e = true ↔ ∃ t, s.strip? e.key = some t ∧ t.state = .fenced) ∧
  (∀ (s : State) (hs : List Held) (f : Copy → Strip → Strip),
    Keeps s (s.mapNamed hs f) { copies := [0, 1, 2, 3, 4, 5] } ∧
    ∀ k, (s.mapNamed hs f).copy k = { s.copy k with
      queue := (s.copy k).queue.map fun t => if names hs k t.index then f (s.copy k) t else t }) ∧
  ∀ (n : SpindleId) (c : Nat) (s : State), ∃ rest,
    (s.spindle n).queue.drop (s.spindle n).readPos = s.drawn n c ++ rest ∧ (s.drawn n c).length ≤ c ∧
    (∀ e ∈ s.drawn n c, s.entryFenced e = false) ∧
    ((s.drawn n c).length = c ∨ rest = [] ∨ ∃ e, rest.head? = some e ∧ s.entryFenced e = true)

/-- REWIND STRIP, RENEW and SET PREFETCH (R114, R115, R100, R123): a rewind puts the read position at the head and restarts
the oldest strip's lease, LATE for a FENCED one; a renew restarts the lease of every ISSUED strip; the threshold is
brought to 255 and auto-prefetch evaluated. The items of a rewind's LATE answer, RENEW's count in one byte and the unread
level in two are the model's reading (log 13, log 15). -/
def Obligations.LeaseAndThresholdRequests : Prop :=
  ∀ (n : SpindleId) (x : Word) (s : State),
    let p := PortId.spindle n
    let sp := s.spindle n
    let restart (v : State) (hs : List Held) : State := v.mapNamed hs fun c t =>
      { t with lease := t.lease.map fun l => { l with remaining := c.leaseTime } }
    exec (.rewindStrip n) s = .next (s.ifTaken p (
      match sp.issued with
      | [] => s.replied p .notHeld []
      | h :: _ =>
        if s.heldIn h .issued = true then
          restart ((s.replied p .ok (keyBytes h.key ++ u16 sp.queue.length)).setSpindle n { sp with readPos := 0 }) [h]
        else s.replied p .late (keyBytes h.key ++ u16 (sp.queue.length - sp.readPos)))) ∧
    exec (.renew n) s = .next (s.ifTaken p
      (restart (s.replied p .ok (u8 (s.issuedStrips n).length)) (s.issuedStrips n))) ∧
    exec (.setPrefetch n x) s = .next (s.ifTaken p
      (((s.replied p (if x.toNat ≤ 255 then .ok else .clamped) (u16 (min 255 x.toNat))).setSpindle n
        { sp with threshold := min 255 x.toNat }).handOn [.evaluate n]))

/-! ## Fences and holds -/

/-- RELEASE FENCE (R129 to R131, R80, R81): its checks in order; REQUEUE puts the strip at the tail with the next issue
number; DISCARD removes it and tests the pass. Either way the strip leaves first, with a grant where its computation was
abandoned, and the evaluations follow last. -/
def Obligations.ReleaseFenceEffects : Prop :=
  ∀ (slot : Byte) (index : Word) (action : Byte) (s : State),
    exec (.releaseFence slot index action) s = .next (s.ifTaken .plan (
      match slotOf slot with
      | none => s.replied .plan .badArg []
      | some k =>
        if action ≠ 0#8 ∧ action ≠ 1#8 then s.replied .plan .badArg []
        else if 4095 < index.toNat then s.replied .plan .badArg []
        else if (s.copy k).state = .free ∨ (s.copy k).state = .clearing then s.replied .plan .badState []
        else match (s.copy k).queue.find? fun t => decide (t.index = index.toNat) with
          | none => s.replied .plan .badState []
          | some t =>
            if t.state ≠ .fenced then s.replied .plan .badState []
            else if t.underMerge = true then s.replied .plan .held []
            else
              let left := s.leave k t true
              let v := if s.engine.inFlight.any (fun x => decide (x.key = t.keyIn k)) then left.grantTest else left
              let c := left.copy k
              let others := c.queue.filter fun u => decide (u.index ≠ t.index)
              let own := c.queue.filter fun u => decide (u.index = t.index)
              let chores := (s.boundTo k).map Chore.evaluate
              if action = 0#8 then
                ((v.setCopy k { c with queue := others ++ own.map fun u => { u with issue := u.issue + 1#8 } }).setPort
                  .plan ((s.replied .plan .ok (keyBytes (t.keyIn k) ++ [0#8] ++ u16 (others.length + own.length)
                    ++ [t.issue + 1#8])).port .plan)).handOn chores
              else
                let w := v.setPort .plan ((s.replied .plan .ok
                  (keyBytes (t.keyIn k) ++ [1#8] ++ u16 others.length)).port .plan)
                (if c.state = .cutting ∧ c.planClosed = true ∧ others = [] then
                  (w.setCopy k { c with queue := others, state := .ready, planClosed := false }).raise .plan 2
                else w.setCopy k { c with queue := others }).handOn chores))

/-- HOLD SPINDLE (R133 to R135): a time above 0 replaces the hold with one of PLAN origin and latches HOLD_SET; 0 ends an
active hold, latches HOLD_END and evaluates auto-prefetch; 0 without a hold does nothing. -/
def Obligations.HoldSpindleEffects : Prop :=
  ∀ (spindle : Byte) (time : Word) (s : State),
    exec (.holdSpindle spindle time) s = .next (s.ifTaken .plan (
      match spindleOf spindle with
      | none => s.replied .plan .badArg []
      | some n =>
        if time ≠ 0#16 then
          ((s.replied .plan .ok (word2 time ++ [0#8])).setSpindle n
            { s.spindle n with holdRemaining := time.toNat, holdOrigin := .plan }).raise (.spindle n) 2
        else if 0 < (s.spindle n).holdRemaining then
          (((s.replied .plan .ok [0#8, 0#8, 0#8]).setSpindle n
            { s.spindle n with holdRemaining := 0, holdOrigin := .plan }).raise (.spindle n) 3).handOn [.evaluate n]
        else s.replied .plan .ok ([0#8, 0#8] ++ [if (s.spindle n).holdOrigin = .scan then 1#8 else 0#8])))

/-! ## Cut reports -/

/-- REPORT CUT (R138 to R141, R152): its cases in order; a held report starts a merge, checked when the strip is COMPLETE,
stops the strip's lease and marks it; a stale one starts a merge that marks nothing; a report that meets a merge still in
flight waits, undecided. That the lease of an ISSUED strip a waiting report names runs on meanwhile is the model's reading
(log 32). -/
def Obligations.ReportCutDecided : Prop :=
  ∀ (n : SpindleId) (slot : Byte) (index : Word) (issue : Byte) (floors : List Depth) (s : State),
    let p := PortId.spindle n
    let sp := s.spindle n
    let count := floors.length
    let merge (kind : MergeKind) (key : StripKey) (g : Geometry) (checked : Bool) (targets : List Entry) : Merge :=
      { kind := kind
        key := key
        geometry := g
        checked := checked
        targets := targets
        floors := floors.map fun d => min 262143 d.toNat
        ranged := floors.countP fun d => decide (262143 < d.toNat)
        done := 0
        deepened := 0
        overcut := 0
        shortfall := 0
        spoil := 0
        answers := true }
    exec (.reportCut n slot index issue floors) s = .next (s.ifTaken p (
      if sp.merge ≠ none then
        (s.working p).setSpindle n { sp with
          waiting := some { slot := slot, index := index, issue := issue, floors := floors } }
      else match slotOf slot with
        | none => s.replied p .badArg []
        | some k =>
          let key : StripKey := { copy := k, index := index.toNat, issue := issue }
          if 4095 < index.toNat ∨ count < 1 ∨ 256 < count then s.replied p .badArg []
          else match sp.issued.find? fun h => decide (h.key = key), s.strip? key with
            | some h, some t =>
              if count ≠ t.length then s.replied p .badArg []
              else
                let checked := decide (h.status = .complete)
                let m := merge (if t.state = .issued then .heldIssued else .heldFenced) key t.geometry checked
                  (if checked then sp.queue.filter fun e => decide (e.key = key) else [])
                ((s.working p).setSpindle n { sp with merge := some m }).setCopy k ((s.copy k).updateStrip index.toNat
                  fun u => { u with underMerge := true, lease := u.lease.map fun l => { l with running := false } })
            | _, _ =>
              match sp.departed.reverse.find? fun d => decide (d.key = key) with
              | some d =>
                if sp.bound ≠ some k then s.replied p .notHeld []
                else if count ≠ d.geometry.length then s.replied p .badArg []
                else (s.working p).setSpindle n { sp with merge := some (merge .stale key d.geometry false []) }
              | none => s.replied p .notHeld []))

/-- MERGE_CELL, one cell (R142 to R144): the floor becomes the larger of the old one and the reported one, and the tallies
are raised by the checks, made on the reported floor against the cell's entry in a checked merge and on the crossing of
the final target plus the tolerance in every merge; after the last cell the merge completes. Without a merge the event
changes nothing: the model's choice (log 2). -/
def Obligations.MergeCellEffects : Prop :=
  (∀ (s : State) (n : SpindleId), (s.spindle n).merge = none → exec (.mergeCell n) s = .next s) ∧
  ∀ (s : State) (n : SpindleId) (m : Merge) (r : Nat), (s.spindle n).merge = some m →
    m.floors[m.done]? = some r →
    let k := m.key.copy
    let c := s.copy k
    let e := c.tolerance
    let cx := if m.geometry.direction = .forward then m.geometry.first + m.done
      else m.geometry.first + m.geometry.length - 1 - m.done
    let cy := m.geometry.row
    let before := c.floor cx cy
    let one (b : Bool) : Nat := if b then 1 else 0
    let entry := if m.checked then m.targets[m.done]? else none
    let m' := { m with
      done := m.done + 1
      deepened := m.deepened + one (decide (before < r))
      overcut := m.overcut + one (entry.any fun t => decide (t.target + e < r))
      shortfall := m.shortfall + one (entry.any fun t => !t.held && !t.nothing && decide (r + e < t.target))
      spoil := m.spoil + one ((finalTarget s.relief c.mapping cx cy).any fun t =>
        decide (before ≤ t.1 + e) && decide (t.1 + e < max before r)) }
    let v := (s.setSpindle n { s.spindle n with merge := some m' }).setCopy k (c.setFloor cx cy (max before r))
    exec (.mergeCell n) s = .next (if m.floors.length ≤ m.done + 1 then v.completeMerge n m' else v) ∧
    ∀ x y, x < 2048 → cx < 2048 →
      (v.copy k).floor x y = if x = cx ∧ y = cy then max before r else c.floor x y

/-- The completion of a merge (R145 to R148, R79, R81, R82, R152), in the order of its steps: the counters; the strip removed,
requeued or dropped as stuck, with the pass completion test; the events and the pause of stop-on-spoil; the answer, unless
a port reset has orphaned the merge; then the work it hands on and the decision of a waiting report. The bytes of the
outcome are the model's reading (log 14); the outcome NONE of a held merge whose strip is not found, and the free order
that takes the waiting report among the other work, are its choices (log 19, log 20). -/
def Obligations.MergeCompletionEffects : Prop :=
  ∀ (s : State) (n : SpindleId) (m : Merge),
    let k := m.key.copy
    let c := s.copy k
    let raised := { c with
      counters := { c.counters with
        overcut := min 65535 (c.counters.overcut + m.overcut)
        spoil := min 65535 (c.counters.spoil + m.spoil)
        stale := min 65535 (c.counters.stale + if m.kind = .stale then 1 else 0) } }
    let s1 := (s.setSpindle n { s.spindle n with merge := none }).setCopy k raised
    let strip := if m.kind = .stale then none else s1.strip? m.key
    let good := m.checked = true ∧ m.shortfall = 0
    let outcome : MergeOutcome := match strip with
      | none => .none
      | some t => if good then .removed else if t.retry < 3 then .requeued (t.retry + 1) else .stuck
    let tested (v : State) : State :=
      if (v.copy k).state = .cutting ∧ (v.copy k).planClosed = true ∧ (v.copy k).queue = [] then
        (v.setCopy k { v.copy k with state := .ready, planClosed := false }).raise .plan 2
      else v
    let s2 : State := match strip with
      | none => s1
      | some t =>
        let v := s1.leave k t true
        let cv := v.copy k
        let others := cv.queue.filter fun u => decide (u.index ≠ t.index)
        let own := cv.queue.filter fun u => decide (u.index = t.index)
        if good then tested (v.setCopy k { cv with queue := others })
        else if t.retry < 3 then
          v.setCopy k { cv with queue := others ++ own.map fun u => { u with retry := t.retry + 1 } }
        else tested ((v.setCopy k { cv with
          queue := others
          counters := { cv.counters with stuck := min 65535 (cv.counters.stuck + 1) } }).raise .plan 4)
    let paused := decide (1 ≤ m.spoil) && (s2.copy k).stopOnSpoil && decide ((s2.copy k).state = .cutting)
    let s3 := if 1 ≤ m.overcut then s2.raise .plan 6 else s2
    let s4 := if 1 ≤ m.spoil then s3.raise .plan 5 else s3
    let s5 := if paused then s4.setCopy k { s4.copy k with state := .paused } else s4
    let s6 := if m.kind = .stale then s5.raise .plan 7 else s5
    let s7 := if m.answers then s6.answer (.spindle n)
        (match m.kind with
          | .heldIssued => .ok
          | .heldFenced => .late
          | .stale => .stale)
        (keyBytes m.key ++ [if m.checked then 1#8 else 0#8] ++ u16 m.floors.length ++ u16 m.deepened
          ++ u16 m.ranged ++ u16 m.overcut ++ u16 m.shortfall ++ u16 m.spoil ++ outcomeBytes outcome
          ++ [if paused then 1#8 else 0#8]) else s6
    s.completeMerge n m = s7.handOn
      ((match strip with
        | none => []
        | some t => (s.boundTo k).map Chore.evaluate ++ if s.computes (t.keyIn k) then [Chore.grant] else [])
        ++ if (s.spindle n).waiting ≠ none then [Chore.report n] else [])

/-- Two merges that reach one cell (R149): in either order the cell ends at the largest of its old floor and the two
reported floors, and the two spoil tallies together rise by 1 if the two updates carry the floor past the final target
plus the tolerance, and by 0 if they do not. -/
def Obligations.MergesCommute : Prop :=
  ∀ (s : State) (n j : SpindleId) (a b : Merge) (ra rb : Nat), n ≠ j → a.key.copy = b.key.copy →
    a.geometry.row = b.geometry.row → a.geometry.column a.done = b.geometry.column b.done →
    let k := a.key.copy
    let cx := a.geometry.column a.done
    let cy := a.geometry.row
    let f := (s.copy k).floor cx cy
    let v := (s.mergeOne n a ra).mergeOne j b rb
    let w := (s.mergeOne j b rb).mergeOne n a ra
    let final := max f (max ra rb)
    let spoilOf (u : State) (i : SpindleId) : Nat := (((u.spindle i).merge).map Merge.spoil).getD 0
    let crossed : Nat := if (finalTarget s.relief (s.copy k).mapping cx cy).any (fun t =>
      decide (f ≤ t.1 + (s.copy k).tolerance) && decide (t.1 + (s.copy k).tolerance < final)) then 1 else 0
    (v.copy k).floor cx cy = final ∧ (w.copy k).floor cx cy = final ∧
    spoilOf v n + spoilOf v j = a.spoil + b.spoil + crossed ∧
    spoilOf w n + spoilOf w j = a.spoil + b.spoil + crossed

/-! ## Mailboxes -/

/-- POST ORDER and POST NOTE (R175, R176), READ ORDER and READ NOTE (R175, R177): a full box refuses a post; a post that is taken latches
on the reader's port; a read returns the flag as it stood and the content, and clears the flag. -/
def Obligations.MailboxRequests : Prop :=
  ∀ (spindle : Byte) (n : SpindleId) (x : BitVec 64) (s : State),
    let items (b : Box) : List Byte := [if b.full then 1#8 else 0#8] ++ content8 b.content
    exec (.postOrder spindle x) s = .next (s.ifTaken .plan (
      match spindleOf spindle with
      | none => s.replied .plan .badArg []
      | some j =>
        if (s.spindle j).order.full = true then s.replied .plan .full []
        else ((s.replied .plan .ok []).setSpindle j
          { s.spindle j with order := { content := x, full := true } }).raise (.spindle j) 6)) ∧
    exec (.postNote n x) s = .next (s.ifTaken (.spindle n) (
      if (s.spindle n).note.full = true then s.replied (.spindle n) .full []
      else ((s.replied (.spindle n) .ok []).setSpindle n
        { s.spindle n with note := { content := x, full := true } }).raise .plan 9)) ∧
    exec (.readOrder n) s = .next (s.ifTaken (.spindle n)
      ((s.replied (.spindle n) .ok (items (s.spindle n).order)).setSpindle n
        { s.spindle n with order := { (s.spindle n).order with full := false } })) ∧
    exec (.readNote spindle) s = .next (s.ifTaken .plan (
      match spindleOf spindle with
      | none => s.replied .plan .badArg []
      | some j =>
        (s.replied .plan .ok (items (s.spindle j).note)).setSpindle j
          { s.spindle j with note := { (s.spindle j).note with full := false } }))

/-! ## Bounds -/

/-- No spindle holds more than two strips and no departed list more than four entries; retry counts stay within 3, the six
counters and the holds within 65535, and SCAN is only ever the origin of an active hold: every step keeps this (R43, R79,
R87, R133, R139). -/
def Obligations.BoundsKept : Prop :=
  ∀ s t : State, BoundsHold s → step s = .next t → BoundsHold t

/-- The device right after reset meets every invariant of the other statements. -/
def Obligations.InvariantsAtReset : Prop :=
  LinesAgree State.reset ∧ SlotsAgree State.reset ∧ CoveredSealed State.reset ∧ DependentsExact State.reset ∧
    StoresCanonical State.reset ∧ ZonesApart State.reset ∧ BoundsHold State.reset
end

