-- ==== Sys2Proof/Laws/Cells.lean ====
section
/-! SUPPORT. The two memory laws, a read after a write and everything else untouched, and the canonical form every write keeps. -/

namespace Sys2Proof.Machine

variable {α : Type}

theorem Cells.lookup_insert (m : Cells α) (k j : Nat) (v : α) :
    (m.insert k v).lookup j = if k = j then some v else m.lookup j := by
  induction m with
  | nil => simp [Cells.insert, Cells.lookup]
  | cons e m ih =>
    obtain ⟨i, u⟩ := e
    unfold Cells.insert
    split
    · simp [Cells.lookup]
    · split
      · subst_vars
        by_cases h : i = j <;> simp [Cells.lookup, h]
      · simp only [Cells.lookup, ih]
        by_cases h : i = j
        · have : k ≠ j := by omega
          simp [h, this]
        · simp [h]

theorem Cells.lookup_erase (m : Cells α) (k j : Nat) :
    (m.erase k).lookup j = if k = j then none else m.lookup j := by
  induction m with
  | nil => simp [Cells.erase, Cells.lookup]
  | cons e m ih =>
    obtain ⟨i, u⟩ := e
    unfold Cells.erase at ih ⊢
    by_cases hk : i = k
    · subst hk
      by_cases h : i = j <;> simp_all [Cells.lookup]
    · by_cases h : i = j
      · have : k ≠ j := by omega
        simp_all [Cells.lookup]
      · simp_all [Cells.lookup]

theorem Cells.read_write [DecidableEq α] (d : α) (m : Cells α) (k j : Nat) (v : α) :
    Cells.read d (Cells.write d m k v) j = if k = j then v else Cells.read d m j := by
  unfold Cells.read Cells.write
  split
  · rw [Cells.lookup_erase]
    split <;> simp_all
  · rw [Cells.lookup_insert]
    split <;> simp_all

@[simp] theorem Cells.read_write_same [DecidableEq α] (d : α) (m : Cells α) (k : Nat) (v : α) :
    Cells.read d (Cells.write d m k v) k = v := by
  simp [Cells.read_write]

theorem Cells.read_write_ne [DecidableEq α] (d : α) (m : Cells α) {k j : Nat} (v : α) (h : k ≠ j) :
    Cells.read d (Cells.write d m k v) j = Cells.read d m j := by
  simp [Cells.read_write, h]

theorem Cells.mem_insert {m : Cells α} {k : Nat} {v : α} {e : Nat × α} (h : e ∈ m.insert k v) :
    e = (k, v) ∨ e ∈ m := by
  induction m with
  | nil => simpa [Cells.insert] using h
  | cons f m ih =>
    obtain ⟨i, u⟩ := f
    unfold Cells.insert at h
    split at h
    · simpa using h
    · split at h
      · simp only [List.mem_cons] at h ⊢
        tauto
      · simp only [List.mem_cons] at h ⊢
        rcases h with h | h
        · tauto
        · have := ih h
          tauto

theorem Cells.wf_insert {m : Cells α} (h : m.wf) (k : Nat) (v : α) : (m.insert k v).wf := by
  induction m with
  | nil => simp [Cells.wf, Cells.insert]
  | cons f m ih =>
    obtain ⟨i, u⟩ := f
    obtain ⟨h1, h2⟩ := List.pairwise_cons.mp h
    unfold Cells.insert
    split
    · next hk =>
      refine List.pairwise_cons.mpr ⟨fun e he => ?_, h⟩
      rcases List.mem_cons.mp he with rfl | he
      · exact hk
      · exact lt_trans hk (h1 e he)
    · split
      · next hk => subst hk; exact List.pairwise_cons.mpr ⟨h1, h2⟩
      · refine List.pairwise_cons.mpr ⟨fun e he => ?_, ih h2⟩
        rcases Cells.mem_insert he with rfl | he
        · simp only
          omega
        · exact h1 e he

theorem Cells.wf_erase {m : Cells α} (h : m.wf) (k : Nat) : (m.erase k).wf := List.Pairwise.filter _ h

theorem Cells.wf_insertRun {m : Cells α} (h : m.wf) (k : Nat) (vs : List α) : (m.insertRun k vs).wf := by
  induction vs generalizing m k with
  | nil => exact h
  | cons v vs ih => exact ih (Cells.wf_insert h k v) (k + 1)

theorem Cells.canonical_write [DecidableEq α] {d : α} {m : Cells α} (h : Cells.canonical d m) (k : Nat) (v : α) :
    Cells.canonical d (Cells.write d m k v) := by
  unfold Cells.write
  split
  · exact ⟨Cells.wf_erase h.1 k, fun e he => h.2 e (List.mem_filter.mp he).1⟩
  · next hv =>
    refine ⟨Cells.wf_insert h.1 k v, fun e he => ?_⟩
    rcases Cells.mem_insert he with rfl | he
    · exact hv
    · exact h.2 e he

/-- A floor after a floor is written (R33). -/
theorem Copy.floor_setFloor (c : Copy) (cx cy v x y : Nat) :
    (c.setFloor cx cy v).floor x y = if floorKey cx cy = floorKey x y then v else c.floor x y :=
  Cells.read_write _ _ _ _ _

@[simp] theorem Copy.floor_setFloor_same (c : Copy) (cx cy v : Nat) : (c.setFloor cx cy v).floor cx cy = v := by
  simp [Copy.floor_setFloor]

/-- Two cells of a map share a key only if they are one cell (R33: columns below 2048). -/
theorem floorKey_inj {cx cy x y : Nat} (h1 : cx < 2048) (h2 : x < 2048) (h : floorKey cx cy = floorKey x y) :
    cx = x ∧ cy = y := by
  unfold floorKey at h
  omega

end Sys2Proof.Machine
end

