-- ==== Sys2Proof/Laws/Tables.lean ====
section
/-! SUPPORT. Reading and writing the fixed tables: six entries, four entries, eight ports. -/

namespace Sys2Proof

@[simp] theorem Six.get_set_same {α : Type} (t : Six α) (i : Fin 6) (x : α) : (t.set i x).get i = x := by
  fin_cases i <;> rfl

@[simp] theorem Six.get_set_ne {α : Type} (t : Six α) (i j : Fin 6) (x : α) (h : j ≠ i) :
    (t.set i x).get j = t.get j := by
  fin_cases i <;> fin_cases j <;> first | rfl | exact absurd rfl h

@[simp] theorem Six.set_set {α : Type} (t : Six α) (i : Fin 6) (x y : α) : (t.set i x).set i y = t.set i y := by
  fin_cases i <;> rfl

@[simp] theorem Six.set_get {α : Type} (t : Six α) (i : Fin 6) : t.set i (t.get i) = t := by
  fin_cases i <;> rfl

@[simp] theorem Six.get_map {α β : Type} (f : α → β) (t : Six α) (i : Fin 6) : (t.map f).get i = f (t.get i) := by
  fin_cases i <;> rfl

@[simp] theorem Six.get_mapWith {α β : Type} (f : Fin 6 → α → β) (t : Six α) (i : Fin 6) :
    (t.mapWith f).get i = f i (t.get i) := by
  fin_cases i <;> rfl

@[simp] theorem Six.get_fill {α : Type} (x : α) (i : Fin 6) : (Six.fill x).get i = x := by
  fin_cases i <;> rfl

theorem Six.ext_get {α : Type} {t u : Six α} (h : ∀ i, t.get i = u.get i) : t = u := by
  cases t
  cases u
  simp only [Six.mk.injEq]
  exact ⟨h 0, h 1, h 2, h 3, h 4, h 5⟩

theorem Six.set_comm {α : Type} (t : Six α) (i j : Fin 6) (x y : α) (h : i ≠ j) :
    (t.set i x).set j y = (t.set j y).set i x := by
  fin_cases i <;> fin_cases j <;> first | rfl | exact absurd rfl h

theorem mem_allSix (i : Fin 6) : i ∈ allSix := by
  fin_cases i <;> decide

@[simp] theorem Four.get_set_same {α : Type} (t : Four α) (i : Fin 4) (x : α) : (t.set i x).get i = x := by
  fin_cases i <;> rfl

@[simp] theorem Four.get_set_ne {α : Type} (t : Four α) (i j : Fin 4) (x : α) (h : j ≠ i) :
    (t.set i x).get j = t.get j := by
  fin_cases i <;> fin_cases j <;> first | rfl | exact absurd rfl h

@[simp] theorem Four.get_fill {α : Type} (x : α) (i : Fin 4) : (Four.fill x).get i = x := by
  fin_cases i <;> rfl

theorem mem_allFour (i : Fin 4) : i ∈ allFour := by
  fin_cases i <;> decide

namespace Machine

@[simp] theorem Ports.get_set_same (ps : Ports) (p : PortId) (x : Port) : (ps.set p x).get p = x := by
  cases p <;> simp [Ports.get, Ports.set]

@[simp] theorem Ports.get_set_ne (ps : Ports) (p q : PortId) (x : Port) (h : q ≠ p) :
    (ps.set p x).get q = ps.get q := by
  cases p <;> cases q <;> simp_all [Ports.get, Ports.set]

@[simp] theorem Ports.set_set (ps : Ports) (p : PortId) (x y : Port) : (ps.set p x).set p y = ps.set p y := by
  cases p <;> simp [Ports.set]

@[simp] theorem Ports.set_get (ps : Ports) (p : PortId) : ps.set p (ps.get p) = ps := by
  cases p <;> simp [Ports.get, Ports.set]

theorem Ports.ext_get {ps qs : Ports} (h : ∀ p, ps.get p = qs.get p) : ps = qs := by
  cases ps
  cases qs
  have h1 := h .plan
  have h2 := h .scan
  have h3 := Six.ext_get fun n => h (.spindle n)
  simp only [Ports.get] at h1 h2 h3
  simp [h1, h2, h3]

end Machine

end Sys2Proof
end

