-- ==== Sys2Proof/Laws/State.lean ====
section
/-! SUPPORT. One lemma per field and update of the state, and what the parts read as after each update. -/

namespace Sys2Proof.Machine

@[simp] theorem State.setPort_relief (s : State) (p : PortId) (x : Port) : (s.setPort p x).relief = s.relief := rfl
@[simp] theorem State.setPort_staging (s : State) (p : PortId) (x : Port) : (s.setPort p x).staging = s.staging := rfl
@[simp] theorem State.setPort_engine (s : State) (p : PortId) (x : Port) : (s.setPort p x).engine = s.engine := rfl
@[simp] theorem State.setPort_copies (s : State) (p : PortId) (x : Port) : (s.setPort p x).copies = s.copies := rfl
@[simp] theorem State.setPort_spindles (s : State) (p : PortId) (x : Port) : (s.setPort p x).spindles = s.spindles := rfl
@[simp] theorem State.setPort_inReset (s : State) (p : PortId) (x : Port) : (s.setPort p x).inReset = s.inReset := rfl
@[simp] theorem State.setPort_choices (s : State) (p : PortId) (x : Port) : (s.setPort p x).choices = s.choices := rfl
@[simp] theorem State.setPort_pending (s : State) (p : PortId) (x : Port) : (s.setPort p x).pending = s.pending := rfl
@[simp] theorem State.setPort_copy (s : State) (p : PortId) (x : Port) (j : CopySlot) : (s.setPort p x).copy j = s.copy j := rfl
@[simp] theorem State.setPort_spindle (s : State) (p : PortId) (x : Port) (j : SpindleId) : (s.setPort p x).spindle j = s.spindle j := rfl

@[simp] theorem State.modifyPort_relief (s : State) (p : PortId) (f : Port → Port) : (s.modifyPort p f).relief = s.relief := rfl
@[simp] theorem State.modifyPort_staging (s : State) (p : PortId) (f : Port → Port) : (s.modifyPort p f).staging = s.staging := rfl
@[simp] theorem State.modifyPort_engine (s : State) (p : PortId) (f : Port → Port) : (s.modifyPort p f).engine = s.engine := rfl
@[simp] theorem State.modifyPort_copies (s : State) (p : PortId) (f : Port → Port) : (s.modifyPort p f).copies = s.copies := rfl
@[simp] theorem State.modifyPort_spindles (s : State) (p : PortId) (f : Port → Port) : (s.modifyPort p f).spindles = s.spindles := rfl
@[simp] theorem State.modifyPort_inReset (s : State) (p : PortId) (f : Port → Port) : (s.modifyPort p f).inReset = s.inReset := rfl
@[simp] theorem State.modifyPort_choices (s : State) (p : PortId) (f : Port → Port) : (s.modifyPort p f).choices = s.choices := rfl
@[simp] theorem State.modifyPort_pending (s : State) (p : PortId) (f : Port → Port) : (s.modifyPort p f).pending = s.pending := rfl
@[simp] theorem State.modifyPort_copy (s : State) (p : PortId) (f : Port → Port) (j : CopySlot) : (s.modifyPort p f).copy j = s.copy j := rfl
@[simp] theorem State.modifyPort_spindle (s : State) (p : PortId) (f : Port → Port) (j : SpindleId) : (s.modifyPort p f).spindle j = s.spindle j := rfl

@[simp] theorem State.setCopy_relief (s : State) (k : CopySlot) (c : Copy) : (s.setCopy k c).relief = s.relief := rfl
@[simp] theorem State.setCopy_staging (s : State) (k : CopySlot) (c : Copy) : (s.setCopy k c).staging = s.staging := rfl
@[simp] theorem State.setCopy_engine (s : State) (k : CopySlot) (c : Copy) : (s.setCopy k c).engine = s.engine := rfl
@[simp] theorem State.setCopy_spindles (s : State) (k : CopySlot) (c : Copy) : (s.setCopy k c).spindles = s.spindles := rfl
@[simp] theorem State.setCopy_ports (s : State) (k : CopySlot) (c : Copy) : (s.setCopy k c).ports = s.ports := rfl
@[simp] theorem State.setCopy_inReset (s : State) (k : CopySlot) (c : Copy) : (s.setCopy k c).inReset = s.inReset := rfl
@[simp] theorem State.setCopy_choices (s : State) (k : CopySlot) (c : Copy) : (s.setCopy k c).choices = s.choices := rfl
@[simp] theorem State.setCopy_pending (s : State) (k : CopySlot) (c : Copy) : (s.setCopy k c).pending = s.pending := rfl
@[simp] theorem State.setCopy_spindle (s : State) (k : CopySlot) (c : Copy) (j : SpindleId) : (s.setCopy k c).spindle j = s.spindle j := rfl
@[simp] theorem State.setCopy_port (s : State) (k : CopySlot) (c : Copy) (q : PortId) : (s.setCopy k c).port q = s.port q := rfl

@[simp] theorem State.modifyCopy_relief (s : State) (k : CopySlot) (f : Copy → Copy) : (s.modifyCopy k f).relief = s.relief := rfl
@[simp] theorem State.modifyCopy_staging (s : State) (k : CopySlot) (f : Copy → Copy) : (s.modifyCopy k f).staging = s.staging := rfl
@[simp] theorem State.modifyCopy_engine (s : State) (k : CopySlot) (f : Copy → Copy) : (s.modifyCopy k f).engine = s.engine := rfl
@[simp] theorem State.modifyCopy_spindles (s : State) (k : CopySlot) (f : Copy → Copy) : (s.modifyCopy k f).spindles = s.spindles := rfl
@[simp] theorem State.modifyCopy_ports (s : State) (k : CopySlot) (f : Copy → Copy) : (s.modifyCopy k f).ports = s.ports := rfl
@[simp] theorem State.modifyCopy_inReset (s : State) (k : CopySlot) (f : Copy → Copy) : (s.modifyCopy k f).inReset = s.inReset := rfl
@[simp] theorem State.modifyCopy_choices (s : State) (k : CopySlot) (f : Copy → Copy) : (s.modifyCopy k f).choices = s.choices := rfl
@[simp] theorem State.modifyCopy_pending (s : State) (k : CopySlot) (f : Copy → Copy) : (s.modifyCopy k f).pending = s.pending := rfl
@[simp] theorem State.modifyCopy_spindle (s : State) (k : CopySlot) (f : Copy → Copy) (j : SpindleId) : (s.modifyCopy k f).spindle j = s.spindle j := rfl
@[simp] theorem State.modifyCopy_port (s : State) (k : CopySlot) (f : Copy → Copy) (q : PortId) : (s.modifyCopy k f).port q = s.port q := rfl

@[simp] theorem State.setSpindle_relief (s : State) (n : SpindleId) (x : Spindle) : (s.setSpindle n x).relief = s.relief := rfl
@[simp] theorem State.setSpindle_staging (s : State) (n : SpindleId) (x : Spindle) : (s.setSpindle n x).staging = s.staging := rfl
@[simp] theorem State.setSpindle_engine (s : State) (n : SpindleId) (x : Spindle) : (s.setSpindle n x).engine = s.engine := rfl
@[simp] theorem State.setSpindle_copies (s : State) (n : SpindleId) (x : Spindle) : (s.setSpindle n x).copies = s.copies := rfl
@[simp] theorem State.setSpindle_ports (s : State) (n : SpindleId) (x : Spindle) : (s.setSpindle n x).ports = s.ports := rfl
@[simp] theorem State.setSpindle_inReset (s : State) (n : SpindleId) (x : Spindle) : (s.setSpindle n x).inReset = s.inReset := rfl
@[simp] theorem State.setSpindle_choices (s : State) (n : SpindleId) (x : Spindle) : (s.setSpindle n x).choices = s.choices := rfl
@[simp] theorem State.setSpindle_pending (s : State) (n : SpindleId) (x : Spindle) : (s.setSpindle n x).pending = s.pending := rfl
@[simp] theorem State.setSpindle_copy (s : State) (n : SpindleId) (x : Spindle) (j : CopySlot) : (s.setSpindle n x).copy j = s.copy j := rfl
@[simp] theorem State.setSpindle_port (s : State) (n : SpindleId) (x : Spindle) (q : PortId) : (s.setSpindle n x).port q = s.port q := rfl

@[simp] theorem State.modifySpindle_relief (s : State) (n : SpindleId) (f : Spindle → Spindle) : (s.modifySpindle n f).relief = s.relief := rfl
@[simp] theorem State.modifySpindle_staging (s : State) (n : SpindleId) (f : Spindle → Spindle) : (s.modifySpindle n f).staging = s.staging := rfl
@[simp] theorem State.modifySpindle_engine (s : State) (n : SpindleId) (f : Spindle → Spindle) : (s.modifySpindle n f).engine = s.engine := rfl
@[simp] theorem State.modifySpindle_copies (s : State) (n : SpindleId) (f : Spindle → Spindle) : (s.modifySpindle n f).copies = s.copies := rfl
@[simp] theorem State.modifySpindle_ports (s : State) (n : SpindleId) (f : Spindle → Spindle) : (s.modifySpindle n f).ports = s.ports := rfl
@[simp] theorem State.modifySpindle_inReset (s : State) (n : SpindleId) (f : Spindle → Spindle) : (s.modifySpindle n f).inReset = s.inReset := rfl
@[simp] theorem State.modifySpindle_choices (s : State) (n : SpindleId) (f : Spindle → Spindle) : (s.modifySpindle n f).choices = s.choices := rfl
@[simp] theorem State.modifySpindle_pending (s : State) (n : SpindleId) (f : Spindle → Spindle) : (s.modifySpindle n f).pending = s.pending := rfl
@[simp] theorem State.modifySpindle_copy (s : State) (n : SpindleId) (f : Spindle → Spindle) (j : CopySlot) : (s.modifySpindle n f).copy j = s.copy j := rfl
@[simp] theorem State.modifySpindle_port (s : State) (n : SpindleId) (f : Spindle → Spindle) (q : PortId) : (s.modifySpindle n f).port q = s.port q := rfl

@[simp] theorem State.setRelief_relief (s : State) (r : Relief) : (s.setRelief r).relief = r := rfl
@[simp] theorem State.setRelief_staging (s : State) (r : Relief) : (s.setRelief r).staging = s.staging := rfl
@[simp] theorem State.setRelief_engine (s : State) (r : Relief) : (s.setRelief r).engine = s.engine := rfl
@[simp] theorem State.setRelief_copies (s : State) (r : Relief) : (s.setRelief r).copies = s.copies := rfl
@[simp] theorem State.setRelief_spindles (s : State) (r : Relief) : (s.setRelief r).spindles = s.spindles := rfl
@[simp] theorem State.setRelief_ports (s : State) (r : Relief) : (s.setRelief r).ports = s.ports := rfl
@[simp] theorem State.setRelief_inReset (s : State) (r : Relief) : (s.setRelief r).inReset = s.inReset := rfl
@[simp] theorem State.setRelief_choices (s : State) (r : Relief) : (s.setRelief r).choices = s.choices := rfl
@[simp] theorem State.setRelief_pending (s : State) (r : Relief) : (s.setRelief r).pending = s.pending := rfl
@[simp] theorem State.setRelief_copy (s : State) (r : Relief) (j : CopySlot) : (s.setRelief r).copy j = s.copy j := rfl
@[simp] theorem State.setRelief_spindle (s : State) (r : Relief) (j : SpindleId) : (s.setRelief r).spindle j = s.spindle j := rfl
@[simp] theorem State.setRelief_port (s : State) (r : Relief) (q : PortId) : (s.setRelief r).port q = s.port q := rfl

@[simp] theorem State.setStaging_relief (s : State) (i : Fin 4) (x : Option Slot) : (s.setStaging i x).relief = s.relief := rfl
@[simp] theorem State.setStaging_engine (s : State) (i : Fin 4) (x : Option Slot) : (s.setStaging i x).engine = s.engine := rfl
@[simp] theorem State.setStaging_copies (s : State) (i : Fin 4) (x : Option Slot) : (s.setStaging i x).copies = s.copies := rfl
@[simp] theorem State.setStaging_spindles (s : State) (i : Fin 4) (x : Option Slot) : (s.setStaging i x).spindles = s.spindles := rfl
@[simp] theorem State.setStaging_ports (s : State) (i : Fin 4) (x : Option Slot) : (s.setStaging i x).ports = s.ports := rfl
@[simp] theorem State.setStaging_inReset (s : State) (i : Fin 4) (x : Option Slot) : (s.setStaging i x).inReset = s.inReset := rfl
@[simp] theorem State.setStaging_choices (s : State) (i : Fin 4) (x : Option Slot) : (s.setStaging i x).choices = s.choices := rfl
@[simp] theorem State.setStaging_pending (s : State) (i : Fin 4) (x : Option Slot) : (s.setStaging i x).pending = s.pending := rfl
@[simp] theorem State.setStaging_copy (s : State) (i : Fin 4) (x : Option Slot) (j : CopySlot) : (s.setStaging i x).copy j = s.copy j := rfl
@[simp] theorem State.setStaging_spindle (s : State) (i : Fin 4) (x : Option Slot) (j : SpindleId) : (s.setStaging i x).spindle j = s.spindle j := rfl
@[simp] theorem State.setStaging_port (s : State) (i : Fin 4) (x : Option Slot) (q : PortId) : (s.setStaging i x).port q = s.port q := rfl

@[simp] theorem State.setEngine_relief (s : State) (e : Engine) : (s.setEngine e).relief = s.relief := rfl
@[simp] theorem State.setEngine_staging (s : State) (e : Engine) : (s.setEngine e).staging = s.staging := rfl
@[simp] theorem State.setEngine_engine (s : State) (e : Engine) : (s.setEngine e).engine = e := rfl
@[simp] theorem State.setEngine_copies (s : State) (e : Engine) : (s.setEngine e).copies = s.copies := rfl
@[simp] theorem State.setEngine_spindles (s : State) (e : Engine) : (s.setEngine e).spindles = s.spindles := rfl
@[simp] theorem State.setEngine_ports (s : State) (e : Engine) : (s.setEngine e).ports = s.ports := rfl
@[simp] theorem State.setEngine_inReset (s : State) (e : Engine) : (s.setEngine e).inReset = s.inReset := rfl
@[simp] theorem State.setEngine_choices (s : State) (e : Engine) : (s.setEngine e).choices = s.choices := rfl
@[simp] theorem State.setEngine_pending (s : State) (e : Engine) : (s.setEngine e).pending = s.pending := rfl
@[simp] theorem State.setEngine_copy (s : State) (e : Engine) (j : CopySlot) : (s.setEngine e).copy j = s.copy j := rfl
@[simp] theorem State.setEngine_spindle (s : State) (e : Engine) (j : SpindleId) : (s.setEngine e).spindle j = s.spindle j := rfl
@[simp] theorem State.setEngine_port (s : State) (e : Engine) (q : PortId) : (s.setEngine e).port q = s.port q := rfl

@[simp] theorem State.latchPlan_relief (s : State) (l : PlanLatch) : (s.latchPlan l).relief = s.relief := rfl
@[simp] theorem State.latchPlan_staging (s : State) (l : PlanLatch) : (s.latchPlan l).staging = s.staging := rfl
@[simp] theorem State.latchPlan_engine (s : State) (l : PlanLatch) : (s.latchPlan l).engine = s.engine := rfl
@[simp] theorem State.latchPlan_copies (s : State) (l : PlanLatch) : (s.latchPlan l).copies = s.copies := rfl
@[simp] theorem State.latchPlan_spindles (s : State) (l : PlanLatch) : (s.latchPlan l).spindles = s.spindles := rfl
@[simp] theorem State.latchPlan_inReset (s : State) (l : PlanLatch) : (s.latchPlan l).inReset = s.inReset := rfl
@[simp] theorem State.latchPlan_choices (s : State) (l : PlanLatch) : (s.latchPlan l).choices = s.choices := rfl
@[simp] theorem State.latchPlan_pending (s : State) (l : PlanLatch) : (s.latchPlan l).pending = s.pending := rfl
@[simp] theorem State.latchPlan_copy (s : State) (l : PlanLatch) (j : CopySlot) : (s.latchPlan l).copy j = s.copy j := rfl
@[simp] theorem State.latchPlan_spindle (s : State) (l : PlanLatch) (j : SpindleId) : (s.latchPlan l).spindle j = s.spindle j := rfl

@[simp] theorem State.latchScan_relief (s : State) (l : ScanLatch) : (s.latchScan l).relief = s.relief := rfl
@[simp] theorem State.latchScan_staging (s : State) (l : ScanLatch) : (s.latchScan l).staging = s.staging := rfl
@[simp] theorem State.latchScan_engine (s : State) (l : ScanLatch) : (s.latchScan l).engine = s.engine := rfl
@[simp] theorem State.latchScan_copies (s : State) (l : ScanLatch) : (s.latchScan l).copies = s.copies := rfl
@[simp] theorem State.latchScan_spindles (s : State) (l : ScanLatch) : (s.latchScan l).spindles = s.spindles := rfl
@[simp] theorem State.latchScan_inReset (s : State) (l : ScanLatch) : (s.latchScan l).inReset = s.inReset := rfl
@[simp] theorem State.latchScan_choices (s : State) (l : ScanLatch) : (s.latchScan l).choices = s.choices := rfl
@[simp] theorem State.latchScan_pending (s : State) (l : ScanLatch) : (s.latchScan l).pending = s.pending := rfl
@[simp] theorem State.latchScan_copy (s : State) (l : ScanLatch) (j : CopySlot) : (s.latchScan l).copy j = s.copy j := rfl
@[simp] theorem State.latchScan_spindle (s : State) (l : ScanLatch) (j : SpindleId) : (s.latchScan l).spindle j = s.spindle j := rfl

@[simp] theorem State.latchSpindle_relief (s : State) (n : SpindleId) (l : SpindleLatch) : (s.latchSpindle n l).relief = s.relief := rfl
@[simp] theorem State.latchSpindle_staging (s : State) (n : SpindleId) (l : SpindleLatch) : (s.latchSpindle n l).staging = s.staging := rfl
@[simp] theorem State.latchSpindle_engine (s : State) (n : SpindleId) (l : SpindleLatch) : (s.latchSpindle n l).engine = s.engine := rfl
@[simp] theorem State.latchSpindle_copies (s : State) (n : SpindleId) (l : SpindleLatch) : (s.latchSpindle n l).copies = s.copies := rfl
@[simp] theorem State.latchSpindle_spindles (s : State) (n : SpindleId) (l : SpindleLatch) : (s.latchSpindle n l).spindles = s.spindles := rfl
@[simp] theorem State.latchSpindle_inReset (s : State) (n : SpindleId) (l : SpindleLatch) : (s.latchSpindle n l).inReset = s.inReset := rfl
@[simp] theorem State.latchSpindle_choices (s : State) (n : SpindleId) (l : SpindleLatch) : (s.latchSpindle n l).choices = s.choices := rfl
@[simp] theorem State.latchSpindle_pending (s : State) (n : SpindleId) (l : SpindleLatch) : (s.latchSpindle n l).pending = s.pending := rfl
@[simp] theorem State.latchSpindle_copy (s : State) (n : SpindleId) (l : SpindleLatch) (j : CopySlot) : (s.latchSpindle n l).copy j = s.copy j := rfl
@[simp] theorem State.latchSpindle_spindle (s : State) (n : SpindleId) (l : SpindleLatch) (j : SpindleId) : (s.latchSpindle n l).spindle j = s.spindle j := rfl

@[simp] theorem State.answer_relief (s : State) (p : PortId) (c : AnswerCode) (d : List Byte) : (s.answer p c d).relief = s.relief := rfl
@[simp] theorem State.answer_staging (s : State) (p : PortId) (c : AnswerCode) (d : List Byte) : (s.answer p c d).staging = s.staging := rfl
@[simp] theorem State.answer_engine (s : State) (p : PortId) (c : AnswerCode) (d : List Byte) : (s.answer p c d).engine = s.engine := rfl
@[simp] theorem State.answer_copies (s : State) (p : PortId) (c : AnswerCode) (d : List Byte) : (s.answer p c d).copies = s.copies := rfl
@[simp] theorem State.answer_spindles (s : State) (p : PortId) (c : AnswerCode) (d : List Byte) : (s.answer p c d).spindles = s.spindles := rfl
@[simp] theorem State.answer_inReset (s : State) (p : PortId) (c : AnswerCode) (d : List Byte) : (s.answer p c d).inReset = s.inReset := rfl
@[simp] theorem State.answer_choices (s : State) (p : PortId) (c : AnswerCode) (d : List Byte) : (s.answer p c d).choices = s.choices := rfl
@[simp] theorem State.answer_pending (s : State) (p : PortId) (c : AnswerCode) (d : List Byte) : (s.answer p c d).pending = s.pending := rfl
@[simp] theorem State.answer_copy (s : State) (p : PortId) (c : AnswerCode) (d : List Byte) (j : CopySlot) : (s.answer p c d).copy j = s.copy j := rfl
@[simp] theorem State.answer_spindle (s : State) (p : PortId) (c : AnswerCode) (d : List Byte) (j : SpindleId) : (s.answer p c d).spindle j = s.spindle j := rfl

@[simp] theorem State.endFrame_relief (s : State) (p : PortId) (e : List Byte) : (s.endFrame p e).relief = s.relief := rfl
@[simp] theorem State.endFrame_staging (s : State) (p : PortId) (e : List Byte) : (s.endFrame p e).staging = s.staging := rfl
@[simp] theorem State.endFrame_engine (s : State) (p : PortId) (e : List Byte) : (s.endFrame p e).engine = s.engine := rfl
@[simp] theorem State.endFrame_copies (s : State) (p : PortId) (e : List Byte) : (s.endFrame p e).copies = s.copies := rfl
@[simp] theorem State.endFrame_spindles (s : State) (p : PortId) (e : List Byte) : (s.endFrame p e).spindles = s.spindles := rfl
@[simp] theorem State.endFrame_inReset (s : State) (p : PortId) (e : List Byte) : (s.endFrame p e).inReset = s.inReset := rfl
@[simp] theorem State.endFrame_choices (s : State) (p : PortId) (e : List Byte) : (s.endFrame p e).choices = s.choices := rfl
@[simp] theorem State.endFrame_pending (s : State) (p : PortId) (e : List Byte) : (s.endFrame p e).pending = s.pending := rfl
@[simp] theorem State.endFrame_copy (s : State) (p : PortId) (e : List Byte) (j : CopySlot) : (s.endFrame p e).copy j = s.copy j := rfl
@[simp] theorem State.endFrame_spindle (s : State) (p : PortId) (e : List Byte) (j : SpindleId) : (s.endFrame p e).spindle j = s.spindle j := rfl

@[simp] theorem State.dropFrame_relief (s : State) (p : PortId) : (s.dropFrame p).relief = s.relief := rfl
@[simp] theorem State.dropFrame_staging (s : State) (p : PortId) : (s.dropFrame p).staging = s.staging := rfl
@[simp] theorem State.dropFrame_engine (s : State) (p : PortId) : (s.dropFrame p).engine = s.engine := rfl
@[simp] theorem State.dropFrame_copies (s : State) (p : PortId) : (s.dropFrame p).copies = s.copies := rfl
@[simp] theorem State.dropFrame_spindles (s : State) (p : PortId) : (s.dropFrame p).spindles = s.spindles := rfl
@[simp] theorem State.dropFrame_inReset (s : State) (p : PortId) : (s.dropFrame p).inReset = s.inReset := rfl
@[simp] theorem State.dropFrame_choices (s : State) (p : PortId) : (s.dropFrame p).choices = s.choices := rfl
@[simp] theorem State.dropFrame_pending (s : State) (p : PortId) : (s.dropFrame p).pending = s.pending := rfl
@[simp] theorem State.dropFrame_copy (s : State) (p : PortId) (j : CopySlot) : (s.dropFrame p).copy j = s.copy j := rfl
@[simp] theorem State.dropFrame_spindle (s : State) (p : PortId) (j : SpindleId) : (s.dropFrame p).spindle j = s.spindle j := rfl

@[simp] theorem State.take_relief (s : State) (p : PortId) : (s.take p).relief = s.relief := rfl
@[simp] theorem State.take_staging (s : State) (p : PortId) : (s.take p).staging = s.staging := rfl
@[simp] theorem State.take_engine (s : State) (p : PortId) : (s.take p).engine = s.engine := rfl
@[simp] theorem State.take_copies (s : State) (p : PortId) : (s.take p).copies = s.copies := rfl
@[simp] theorem State.take_spindles (s : State) (p : PortId) : (s.take p).spindles = s.spindles := rfl
@[simp] theorem State.take_inReset (s : State) (p : PortId) : (s.take p).inReset = s.inReset := rfl
@[simp] theorem State.take_choices (s : State) (p : PortId) : (s.take p).choices = s.choices := rfl
@[simp] theorem State.take_pending (s : State) (p : PortId) : (s.take p).pending = s.pending := rfl
@[simp] theorem State.take_copy (s : State) (p : PortId) (j : CopySlot) : (s.take p).copy j = s.copy j := rfl
@[simp] theorem State.take_spindle (s : State) (p : PortId) (j : SpindleId) : (s.take p).spindle j = s.spindle j := rfl

@[simp] theorem State.updateStrip_relief (s : State) (key : StripKey) (f : Strip → Strip) : (s.updateStrip key f).relief = s.relief := rfl
@[simp] theorem State.updateStrip_staging (s : State) (key : StripKey) (f : Strip → Strip) : (s.updateStrip key f).staging = s.staging := rfl
@[simp] theorem State.updateStrip_engine (s : State) (key : StripKey) (f : Strip → Strip) : (s.updateStrip key f).engine = s.engine := rfl
@[simp] theorem State.updateStrip_spindles (s : State) (key : StripKey) (f : Strip → Strip) : (s.updateStrip key f).spindles = s.spindles := rfl
@[simp] theorem State.updateStrip_ports (s : State) (key : StripKey) (f : Strip → Strip) : (s.updateStrip key f).ports = s.ports := rfl
@[simp] theorem State.updateStrip_inReset (s : State) (key : StripKey) (f : Strip → Strip) : (s.updateStrip key f).inReset = s.inReset := rfl
@[simp] theorem State.updateStrip_choices (s : State) (key : StripKey) (f : Strip → Strip) : (s.updateStrip key f).choices = s.choices := rfl
@[simp] theorem State.updateStrip_pending (s : State) (key : StripKey) (f : Strip → Strip) : (s.updateStrip key f).pending = s.pending := rfl
@[simp] theorem State.updateStrip_spindle (s : State) (key : StripKey) (f : Strip → Strip) (j : SpindleId) : (s.updateStrip key f).spindle j = s.spindle j := rfl
@[simp] theorem State.updateStrip_port (s : State) (key : StripKey) (f : Strip → Strip) (q : PortId) : (s.updateStrip key f).port q = s.port q := rfl

@[simp] theorem State.mapNamed_relief (s : State) (hs : List Held) (f : Copy → Strip → Strip) : (s.mapNamed hs f).relief = s.relief := rfl
@[simp] theorem State.mapNamed_staging (s : State) (hs : List Held) (f : Copy → Strip → Strip) : (s.mapNamed hs f).staging = s.staging := rfl
@[simp] theorem State.mapNamed_engine (s : State) (hs : List Held) (f : Copy → Strip → Strip) : (s.mapNamed hs f).engine = s.engine := rfl
@[simp] theorem State.mapNamed_spindles (s : State) (hs : List Held) (f : Copy → Strip → Strip) : (s.mapNamed hs f).spindles = s.spindles := rfl
@[simp] theorem State.mapNamed_ports (s : State) (hs : List Held) (f : Copy → Strip → Strip) : (s.mapNamed hs f).ports = s.ports := rfl
@[simp] theorem State.mapNamed_inReset (s : State) (hs : List Held) (f : Copy → Strip → Strip) : (s.mapNamed hs f).inReset = s.inReset := rfl
@[simp] theorem State.mapNamed_choices (s : State) (hs : List Held) (f : Copy → Strip → Strip) : (s.mapNamed hs f).choices = s.choices := rfl
@[simp] theorem State.mapNamed_pending (s : State) (hs : List Held) (f : Copy → Strip → Strip) : (s.mapNamed hs f).pending = s.pending := rfl
@[simp] theorem State.mapNamed_spindle (s : State) (hs : List Held) (f : Copy → Strip → Strip) (j : SpindleId) : (s.mapNamed hs f).spindle j = s.spindle j := rfl
@[simp] theorem State.mapNamed_port (s : State) (hs : List Held) (f : Copy → Strip → Strip) (q : PortId) : (s.mapNamed hs f).port q = s.port q := rfl

@[simp] theorem State.restartLeases_relief (s : State) (hs : List Held) : (s.restartLeases hs).relief = s.relief := rfl
@[simp] theorem State.restartLeases_staging (s : State) (hs : List Held) : (s.restartLeases hs).staging = s.staging := rfl
@[simp] theorem State.restartLeases_engine (s : State) (hs : List Held) : (s.restartLeases hs).engine = s.engine := rfl
@[simp] theorem State.restartLeases_spindles (s : State) (hs : List Held) : (s.restartLeases hs).spindles = s.spindles := rfl
@[simp] theorem State.restartLeases_ports (s : State) (hs : List Held) : (s.restartLeases hs).ports = s.ports := rfl
@[simp] theorem State.restartLeases_inReset (s : State) (hs : List Held) : (s.restartLeases hs).inReset = s.inReset := rfl
@[simp] theorem State.restartLeases_choices (s : State) (hs : List Held) : (s.restartLeases hs).choices = s.choices := rfl
@[simp] theorem State.restartLeases_pending (s : State) (hs : List Held) : (s.restartLeases hs).pending = s.pending := rfl
@[simp] theorem State.restartLeases_spindle (s : State) (hs : List Held) (j : SpindleId) : (s.restartLeases hs).spindle j = s.spindle j := rfl
@[simp] theorem State.restartLeases_port (s : State) (hs : List Held) (q : PortId) : (s.restartLeases hs).port q = s.port q := rfl

@[simp] theorem State.fenceAll_relief (s : State) (n : SpindleId) (hs : List Held) : (s.fenceAll n hs).relief = s.relief := rfl
@[simp] theorem State.fenceAll_staging (s : State) (n : SpindleId) (hs : List Held) : (s.fenceAll n hs).staging = s.staging := rfl
@[simp] theorem State.fenceAll_engine (s : State) (n : SpindleId) (hs : List Held) : (s.fenceAll n hs).engine = s.engine := rfl
@[simp] theorem State.fenceAll_ports (s : State) (n : SpindleId) (hs : List Held) : (s.fenceAll n hs).ports = s.ports := rfl
@[simp] theorem State.fenceAll_inReset (s : State) (n : SpindleId) (hs : List Held) : (s.fenceAll n hs).inReset = s.inReset := rfl
@[simp] theorem State.fenceAll_choices (s : State) (n : SpindleId) (hs : List Held) : (s.fenceAll n hs).choices = s.choices := rfl
@[simp] theorem State.fenceAll_pending (s : State) (n : SpindleId) (hs : List Held) : (s.fenceAll n hs).pending = s.pending := rfl
@[simp] theorem State.fenceAll_port (s : State) (n : SpindleId) (hs : List Held) (q : PortId) : (s.fenceAll n hs).port q = s.port q := rfl

@[simp] theorem State.mapNamed_copy (s : State) (hs : List Held) (f : Copy → Strip → Strip) (k : CopySlot) :
    (s.mapNamed hs f).copy k =
      { s.copy k with queue := (s.copy k).queue.map fun t => if names hs k t.index then f (s.copy k) t else t } :=
  Six.get_mapWith _ _ _

@[simp] theorem State.restartLeases_copy (s : State) (hs : List Held) (k : CopySlot) :
    (s.restartLeases hs).copy k =
      { s.copy k with
        queue := (s.copy k).queue.map fun t =>
          if names hs k t.index then t.restartLease (s.copy k).leaseTime else t } :=
  State.mapNamed_copy _ _ _ _

@[simp] theorem State.setPort_port_same (s : State) (p : PortId) (x : Port) : (s.setPort p x).port p = x :=
  Ports.get_set_same _ _ _

@[simp] theorem State.setPort_port_ne (s : State) (p q : PortId) (x : Port) (h : q ≠ p) :
    (s.setPort p x).port q = s.port q := Ports.get_set_ne _ _ _ _ h

@[simp] theorem State.modifyPort_port_same (s : State) (p : PortId) (f : Port → Port) :
    (s.modifyPort p f).port p = f (s.port p) := Ports.get_set_same _ _ _

@[simp] theorem State.modifyPort_port_ne (s : State) (p q : PortId) (f : Port → Port) (h : q ≠ p) :
    (s.modifyPort p f).port q = s.port q := Ports.get_set_ne _ _ _ _ h

@[simp] theorem State.setCopy_copy_same (s : State) (k : CopySlot) (c : Copy) : (s.setCopy k c).copy k = c :=
  Six.get_set_same _ _ _

@[simp] theorem State.setCopy_copy_ne (s : State) (k j : CopySlot) (c : Copy) (h : j ≠ k) :
    (s.setCopy k c).copy j = s.copy j := Six.get_set_ne _ _ _ _ h

@[simp] theorem State.modifyCopy_copy_same (s : State) (k : CopySlot) (f : Copy → Copy) :
    (s.modifyCopy k f).copy k = f (s.copy k) := Six.get_set_same _ _ _

@[simp] theorem State.modifyCopy_copy_ne (s : State) (k j : CopySlot) (f : Copy → Copy) (h : j ≠ k) :
    (s.modifyCopy k f).copy j = s.copy j := Six.get_set_ne _ _ _ _ h

@[simp] theorem State.setSpindle_spindle_same (s : State) (n : SpindleId) (x : Spindle) :
    (s.setSpindle n x).spindle n = x := Six.get_set_same _ _ _

@[simp] theorem State.setSpindle_spindle_ne (s : State) (n j : SpindleId) (x : Spindle) (h : j ≠ n) :
    (s.setSpindle n x).spindle j = s.spindle j := Six.get_set_ne _ _ _ _ h

@[simp] theorem State.modifySpindle_spindle_same (s : State) (n : SpindleId) (f : Spindle → Spindle) :
    (s.modifySpindle n f).spindle n = f (s.spindle n) := Six.get_set_same _ _ _

@[simp] theorem State.modifySpindle_spindle_ne (s : State) (n j : SpindleId) (f : Spindle → Spindle) (h : j ≠ n) :
    (s.modifySpindle n f).spindle j = s.spindle j := Six.get_set_ne _ _ _ _ h

@[simp] theorem State.setStaging_get_same (s : State) (i : Fin 4) (x : Option Slot) :
    (s.setStaging i x).staging.get i = x := Four.get_set_same _ _ _

@[simp] theorem State.setStaging_get_ne (s : State) (i j : Fin 4) (x : Option Slot) (h : j ≠ i) :
    (s.setStaging i x).staging.get j = s.staging.get j := Four.get_set_ne _ _ _ _ h

@[simp] theorem State.setPort_setPort (s : State) (p : PortId) (x y : Port) :
    (s.setPort p x).setPort p y = s.setPort p y := by
  simp [State.setPort]

@[simp] theorem State.setCopy_setCopy (s : State) (k : CopySlot) (c d : Copy) :
    (s.setCopy k c).setCopy k d = s.setCopy k d := by
  simp [State.setCopy]

@[simp] theorem State.setSpindle_setSpindle (s : State) (n : SpindleId) (x y : Spindle) :
    (s.setSpindle n x).setSpindle n y = s.setSpindle n y := by
  simp [State.setSpindle]

end Sys2Proof.Machine
end

