-- ==== Sys2Proof/Laws/Ops.lean ====
section
/-! SUPPORT. What each shared operation can do, said once: requests, latches, staging slots, pass values, the grant, the issue, a strip's leaving, hand-on work. -/

namespace Sys2Proof.Machine

/-! ## Requests -/

theorem State.take_answer (s : State) (p : PortId) (c : AnswerCode) (d : List Byte) :
    (s.take p).answer p c d = s.replied p c d := by
  simp [State.take, State.answer, State.replied, State.endFrame, State.modifyPort]

theorem State.take_eq_working (s : State) (p : PortId) : s.take p = s.working p := by
  simp [State.take, State.working, State.endFrame, State.modifyPort]

/-- A request is decided by its own rule where the port takes it, and otherwise only its frame ends. -/
theorem State.request_eq (s : State) (p : PortId) (f : State → State) :
    s.request p f = s.ifTaken p (f (s.take p)) := by
  unfold State.request State.ifTaken State.takes State.untaken State.endFrame State.dropFrame
  cases h : s.frameCounts p <;> cases h2 : showsWorking (s.fallStatus p) <;> simp

/-- A request that carries a copy slot: refused with BAD_ARG for a number outside 0 to 5. -/
theorem State.onCopy_eq (s : State) (b : Byte) (f : CopySlot → State → State) :
    s.onCopy b f = s.ifTaken .plan (match slotOf b with
      | none => s.replied .plan .badArg []
      | some k => f k (s.take .plan)) := by
  unfold State.onCopy
  rw [State.request_eq]
  cases slotOf b <;> simp [State.take_answer]

/-! ## Latches -/

theorem State.latchPlan_eq_raise (s : State) (l : PlanLatch) : s.latchPlan l = s.raise .plan (planBit l) := rfl
theorem State.latchScan_eq_raise (s : State) (l : ScanLatch) : s.latchScan l = s.raise .scan (scanBit l) := rfl
theorem State.latchSpindle_eq_raise (s : State) (n : SpindleId) (l : SpindleLatch) :
    s.latchSpindle n l = s.raise (.spindle n) (spindleBit l) := rfl

/-! ## Staging slots -/

/-- A slot found is in use and holds the key. -/
theorem State.findSlot_some {s : State} {key : TileKey} {i : Fin 4} {x : Slot} (h : s.findSlot key = some (i, x)) :
    s.staging.get i = some x ∧ x.key = key := by
  obtain ⟨j, _, hj⟩ := List.exists_of_findSome?_eq_some h
  split at hj
  · split at hj
    · cases hj; exact ⟨by assumption, by assumption⟩
    · cases hj
  · cases hj

/-- No slot found: no slot in use holds the key. -/
theorem State.findSlot_none {s : State} {key : TileKey} (h : s.findSlot key = none) (i : Fin 4) (x : Slot)
    (hx : s.staging.get i = some x) : x.key ≠ key := by
  have := List.findSome?_eq_none_iff.1 h i (mem_allFour i)
  intro hk
  simp [hx, hk] at this

/-- A free slot found is free. -/
theorem State.freeSlot_some {s : State} {i : Fin 4} (h : s.freeSlot = some i) : s.staging.get i = none := by
  simpa using List.find?_some h

/-! ## Strips -/

/-- A strip looked up is in the queue, under its index. -/
theorem Copy.strip?_some {c : Copy} {i : Nat} {t : Strip} (h : c.strip? i = some t) : t ∈ c.queue ∧ t.index = i :=
  ⟨List.mem_of_find?_eq_some h, by simpa using List.find?_some h⟩

/-- Changing a strip in its place keeps every index, if the change does. -/
theorem Copy.updateStrip_indices (c : Copy) (i : Nat) (f : Strip → Strip) (hf : ∀ t, (f t).index = t.index) :
    ((c.updateStrip i f).queue.map Strip.index) = c.queue.map Strip.index := by
  simp only [Copy.updateStrip, List.map_map]
  congr 1
  funext t
  simp only [Function.comp_apply]
  split
  · exact hf t
  · rfl

/-! ## Pass values -/

/-- A SET PASS writes the kind, p and a it carries, whatever the kind (R34). -/
@[simp] theorem Copy.setPass_pass (c : Copy) (p : Pass) : (c.setPass p).pass = p := rfl
@[simp] theorem Copy.setPass_state (c : Copy) (p : Pass) : (c.setPass p).state = c.state := rfl
@[simp] theorem Copy.setPass_queue (c : Copy) (p : Pass) : (c.setPass p).queue = c.queue := rfl
@[simp] theorem Copy.setPass_floors (c : Copy) (p : Pass) : (c.setPass p).floors = c.floors := rfl
@[simp] theorem Copy.setPass_counters (c : Copy) (p : Pass) : (c.setPass p).counters = c.counters := rfl

/-- A SET PASS with FINISH keeps the p and a of roughing, so that a later ROUGH finds them as they were (R58); a ROUGH
sets them. -/
theorem Copy.setPass_kept (c : Copy) (p : Pass) :
    (c.setPass p).kept = if p.kind = .rough then ⟨p.stepDown, p.allowance⟩ else c.kept := by
  cases h : p.kind <;> simp [Copy.setPass, h]

/-! ## The grant -/

/-- A grant test starts one computation or does nothing. -/
theorem State.grantTest_cases (s : State) :
    s.grantTest = s ∨ ∃ n h t, s.engine.inFlight = none ∧ (s.spindle n).oldestAwaiting = some h ∧
      s.strip? h.key = some t ∧ s.grantTest = s.startComputation n h t := by
  unfold State.grantTest
  split
  · exact .inl rfl
  · split
    · exact .inl rfl
    · split
      · exact .inl rfl
      · split
        · exact .inl rfl
        · exact .inr ⟨_, _, _, by assumption, by assumption, by assumption, rfl⟩

/-- What starting a computation leaves: everything but the engine and one spindle's statuses. -/
theorem State.startComputation_keeps (s : State) (n : SpindleId) (h : Held) (t : Strip) :
    Keeps s (s.startComputation n h t) { engine := true, spindles := [n] } := by
  refine ⟨fun _ => rfl, fun _ => rfl, nofun, fun _ _ => rfl, fun j hj => ?_, fun _ _ => rfl, rfl, rfl, rfl⟩
  have hn : j ≠ n := by simpa using hj
  simp [State.startComputation, hn]

@[simp] theorem State.grantTest_relief (s : State) : s.grantTest.relief = s.relief := by
  obtain h | ⟨n, h, t, -, -, -, e⟩ := s.grantTest_cases
  · rw [h]
  · rw [e]; rfl
@[simp] theorem State.grantTest_staging (s : State) : s.grantTest.staging = s.staging := by
  obtain h | ⟨n, h, t, -, -, -, e⟩ := s.grantTest_cases
  · rw [h]
  · rw [e]; rfl
@[simp] theorem State.grantTest_copies (s : State) : s.grantTest.copies = s.copies := by
  obtain h | ⟨n, h, t, -, -, -, e⟩ := s.grantTest_cases
  · rw [h]
  · rw [e]; rfl
@[simp] theorem State.grantTest_ports (s : State) : s.grantTest.ports = s.ports := by
  obtain h | ⟨n, h, t, -, -, -, e⟩ := s.grantTest_cases
  · rw [h]
  · rw [e]; rfl
@[simp] theorem State.grantTest_inReset (s : State) : s.grantTest.inReset = s.inReset := by
  obtain h | ⟨n, h, t, -, -, -, e⟩ := s.grantTest_cases
  · rw [h]
  · rw [e]; rfl
@[simp] theorem State.grantTest_choices (s : State) : s.grantTest.choices = s.choices := by
  obtain h | ⟨n, h, t, -, -, -, e⟩ := s.grantTest_cases
  · rw [h]
  · rw [e]; rfl
@[simp] theorem State.grantTest_pending (s : State) : s.grantTest.pending = s.pending := by
  obtain h | ⟨n, h, t, -, -, -, e⟩ := s.grantTest_cases
  · rw [h]
  · rw [e]; rfl
@[simp] theorem State.grantTest_copy (s : State) (k : CopySlot) : s.grantTest.copy k = s.copy k := by
  simp [State.copy]
@[simp] theorem State.grantTest_port (s : State) (p : PortId) : s.grantTest.port p = s.port p := by
  simp [State.port]

/-- A grant test changes nothing of a spindle but the statuses of its list. -/
theorem State.grantTest_spindle (s : State) (j : SpindleId) :
    { s.grantTest.spindle j with issued := [] } = { s.spindle j with issued := [] } ∧
      (s.grantTest.spindle j).issued.map Held.key = (s.spindle j).issued.map Held.key := by
  obtain h | ⟨n, h, t, -, -, -, e⟩ := s.grantTest_cases
  · rw [h]; exact ⟨rfl, rfl⟩
  · rw [e]
    by_cases hj : j = n
    · subst hj
      have : (s.startComputation j h t).spindle j = (s.spindle j).setStatus h.key fun _ => .computing := by
        simp [State.startComputation]
      rw [this]
      refine ⟨rfl, ?_⟩
      simp only [Spindle.setStatus, List.map_map]
      congr 1
      funext g
      simp only [Function.comp_apply]
      split <;> rfl
    · have : (s.startComputation n h t).spindle j = s.spindle j := by simp [State.startComputation, hj]
      rw [this]; exact ⟨rfl, rfl⟩

/-! ## The issue -/

/-- What an issue leaves before its grant test: everything but the relief's counts, its copy and its spindle. -/
theorem State.issueStrip_keeps (s : State) (n : SpindleId) (k : CopySlot) (t : Strip) :
    Keeps s (s.issueStrip n k t) { relief := true, copies := [k], spindles := [n] } := by
  refine ⟨nofun, fun _ => rfl, fun _ => rfl, fun j hj => ?_, fun j hj => ?_, fun _ _ => rfl, rfl, rfl, rfl⟩
  · have hk : j ≠ k := by simpa using hj
    simp [State.issueStrip, hk]
  · have hn : j ≠ n := by simpa using hj
    simp [State.issueStrip, hn]

@[simp] theorem State.issueStrip_staging (s : State) (n : SpindleId) (k : CopySlot) (t : Strip) :
    (s.issueStrip n k t).staging = s.staging := rfl
@[simp] theorem State.issueStrip_engine (s : State) (n : SpindleId) (k : CopySlot) (t : Strip) :
    (s.issueStrip n k t).engine = s.engine := rfl
@[simp] theorem State.issueStrip_ports (s : State) (n : SpindleId) (k : CopySlot) (t : Strip) :
    (s.issueStrip n k t).ports = s.ports := rfl
@[simp] theorem State.issueStrip_inReset (s : State) (n : SpindleId) (k : CopySlot) (t : Strip) :
    (s.issueStrip n k t).inReset = s.inReset := rfl
@[simp] theorem State.issueStrip_choices (s : State) (n : SpindleId) (k : CopySlot) (t : Strip) :
    (s.issueStrip n k t).choices = s.choices := rfl
@[simp] theorem State.issueStrip_pending (s : State) (n : SpindleId) (k : CopySlot) (t : Strip) :
    (s.issueStrip n k t).pending = s.pending := rfl
@[simp] theorem State.issueStrip_copy_ne (s : State) (n : SpindleId) (k j : CopySlot) (t : Strip) (h : j ≠ k) :
    (s.issueStrip n k t).copy j = s.copy j := by simp [State.issueStrip, h]

@[simp] theorem State.issue_staging (s : State) (n : SpindleId) (k : CopySlot) (t : Strip) :
    (s.issue n k t).staging = s.staging := by simp [State.issue]
@[simp] theorem State.issue_copies (s : State) (n : SpindleId) (k : CopySlot) (t : Strip) :
    (s.issue n k t).copies = (s.issueStrip n k t).copies := by simp [State.issue]
@[simp] theorem State.issue_ports (s : State) (n : SpindleId) (k : CopySlot) (t : Strip) :
    (s.issue n k t).ports = s.ports := by simp [State.issue]
@[simp] theorem State.issue_inReset (s : State) (n : SpindleId) (k : CopySlot) (t : Strip) :
    (s.issue n k t).inReset = s.inReset := by simp [State.issue]
@[simp] theorem State.issue_choices (s : State) (n : SpindleId) (k : CopySlot) (t : Strip) :
    (s.issue n k t).choices = s.choices := by simp [State.issue]
@[simp] theorem State.issue_pending (s : State) (n : SpindleId) (k : CopySlot) (t : Strip) :
    (s.issue n k t).pending = s.pending := by simp [State.issue]
@[simp] theorem State.issue_copy_ne (s : State) (n : SpindleId) (k j : CopySlot) (t : Strip) (h : j ≠ k) :
    (s.issue n k t).copy j = s.copy j := by simp [State.issue, h]

/-- The strip of an auto-prefetch: found by the search, for a bound spindle with one held strip, no hold and a CUTTING
copy. -/
theorem State.prefetched_some {s : State} {n : SpindleId} {k : CopySlot} {t : Strip}
    (h : s.prefetched n = some (k, t)) :
    ∃ g, (s.spindle n).issued = [g] ∧ (s.spindle n).bound = some k ∧ (s.spindle n).holdRemaining = 0 ∧
      (s.copy k).state = .cutting ∧ s.search n k = some t := by
  unfold State.prefetched at h
  split at h
  · cases h
  · rename_i c hk
    split at h
    · cases h
    · rename_i u hu
      obtain ⟨rfl, rfl⟩ : c = k ∧ u = t := by simpa using h
      simp only [State.prefetchCopy] at hk
      split at hk
      · rename_i g d hi hb
        split at hk
        · rename_i hc
          obtain rfl : d = c := Option.some.inj hk
          exact ⟨g, hi, hb, hc.2.2.2.2.1, hc.2.2.2.2.2, hu⟩
        · cases hk
      · cases hk

/-- An evaluation issues the strip it prefetches and sets off a grant, or does nothing and sets off nothing. -/
theorem State.autoPrefetch_cases (s : State) (n : SpindleId) :
    s.autoPrefetch n = s ∧ s.setsOff (.evaluate n) = [] ∨
      ∃ k t, s.prefetched n = some (k, t) ∧ s.autoPrefetch n = s.issueStrip n k t ∧
        s.setsOff (.evaluate n) = [.grant] := by
  rcases h : s.prefetched n with _ | ⟨k, t⟩ <;> simp [State.autoPrefetch, State.setsOff, h]

/-! ## A strip's leaving -/

@[simp] theorem State.releaseTiles_staging (s : State) (t : Strip) : (s.releaseTiles t).staging = s.staging := by
  unfold State.releaseTiles; split <;> rfl
@[simp] theorem State.releaseTiles_engine (s : State) (t : Strip) : (s.releaseTiles t).engine = s.engine := by
  unfold State.releaseTiles; split <;> rfl
@[simp] theorem State.releaseTiles_copies (s : State) (t : Strip) : (s.releaseTiles t).copies = s.copies := by
  unfold State.releaseTiles; split <;> rfl
@[simp] theorem State.releaseTiles_spindles (s : State) (t : Strip) : (s.releaseTiles t).spindles = s.spindles := by
  unfold State.releaseTiles; split <;> rfl
@[simp] theorem State.releaseTiles_ports (s : State) (t : Strip) : (s.releaseTiles t).ports = s.ports := by
  unfold State.releaseTiles; split <;> rfl
@[simp] theorem State.releaseTiles_inReset (s : State) (t : Strip) : (s.releaseTiles t).inReset = s.inReset := by
  unfold State.releaseTiles; split <;> rfl
@[simp] theorem State.releaseTiles_choices (s : State) (t : Strip) : (s.releaseTiles t).choices = s.choices := by
  unfold State.releaseTiles; split <;> rfl
@[simp] theorem State.releaseTiles_pending (s : State) (t : Strip) : (s.releaseTiles t).pending = s.pending := by
  unfold State.releaseTiles; split <;> rfl

@[simp] theorem State.releaseHolder_relief (s : State) (k : CopySlot) (t : Strip) (b : Bool) :
    (s.releaseHolder k t b).relief = s.relief := by unfold State.releaseHolder; split <;> rfl
@[simp] theorem State.releaseHolder_staging (s : State) (k : CopySlot) (t : Strip) (b : Bool) :
    (s.releaseHolder k t b).staging = s.staging := by unfold State.releaseHolder; split <;> rfl
@[simp] theorem State.releaseHolder_engine (s : State) (k : CopySlot) (t : Strip) (b : Bool) :
    (s.releaseHolder k t b).engine = s.engine := by unfold State.releaseHolder; split <;> rfl
@[simp] theorem State.releaseHolder_copies (s : State) (k : CopySlot) (t : Strip) (b : Bool) :
    (s.releaseHolder k t b).copies = s.copies := by unfold State.releaseHolder; split <;> rfl
@[simp] theorem State.releaseHolder_ports (s : State) (k : CopySlot) (t : Strip) (b : Bool) :
    (s.releaseHolder k t b).ports = s.ports := by unfold State.releaseHolder; split <;> rfl
@[simp] theorem State.releaseHolder_inReset (s : State) (k : CopySlot) (t : Strip) (b : Bool) :
    (s.releaseHolder k t b).inReset = s.inReset := by unfold State.releaseHolder; split <;> rfl
@[simp] theorem State.releaseHolder_choices (s : State) (k : CopySlot) (t : Strip) (b : Bool) :
    (s.releaseHolder k t b).choices = s.choices := by unfold State.releaseHolder; split <;> rfl
@[simp] theorem State.releaseHolder_pending (s : State) (k : CopySlot) (t : Strip) (b : Bool) :
    (s.releaseHolder k t b).pending = s.pending := by unfold State.releaseHolder; split <;> rfl

@[simp] theorem State.abandon_relief (s : State) (key : StripKey) : (s.abandon key).relief = s.relief := by
  unfold State.abandon; split <;> rfl
@[simp] theorem State.abandon_staging (s : State) (key : StripKey) : (s.abandon key).staging = s.staging := by
  unfold State.abandon; split <;> rfl
@[simp] theorem State.abandon_copies (s : State) (key : StripKey) : (s.abandon key).copies = s.copies := by
  unfold State.abandon; split <;> rfl
@[simp] theorem State.abandon_spindles (s : State) (key : StripKey) : (s.abandon key).spindles = s.spindles := by
  unfold State.abandon; split <;> rfl
@[simp] theorem State.abandon_ports (s : State) (key : StripKey) : (s.abandon key).ports = s.ports := by
  unfold State.abandon; split <;> rfl
@[simp] theorem State.abandon_inReset (s : State) (key : StripKey) : (s.abandon key).inReset = s.inReset := by
  unfold State.abandon; split <;> rfl
@[simp] theorem State.abandon_choices (s : State) (key : StripKey) : (s.abandon key).choices = s.choices := by
  unfold State.abandon; split <;> rfl
@[simp] theorem State.abandon_pending (s : State) (key : StripKey) : (s.abandon key).pending = s.pending := by
  unfold State.abandon; split <;> rfl

@[simp] theorem State.leave_staging (s : State) (k : CopySlot) (t : Strip) (b : Bool) :
    (s.leave k t b).staging = s.staging := by simp [State.leave]
@[simp] theorem State.leave_ports (s : State) (k : CopySlot) (t : Strip) (b : Bool) :
    (s.leave k t b).ports = s.ports := by simp [State.leave]
@[simp] theorem State.leave_inReset (s : State) (k : CopySlot) (t : Strip) (b : Bool) :
    (s.leave k t b).inReset = s.inReset := by simp [State.leave]
@[simp] theorem State.leave_choices (s : State) (k : CopySlot) (t : Strip) (b : Bool) :
    (s.leave k t b).choices = s.choices := by simp [State.leave]
@[simp] theorem State.leave_pending (s : State) (k : CopySlot) (t : Strip) (b : Bool) :
    (s.leave k t b).pending = s.pending := by simp [State.leave]
@[simp] theorem State.leave_relief (s : State) (k : CopySlot) (t : Strip) (b : Bool) :
    (s.leave k t b).relief = (s.releaseTiles t).relief := by simp [State.leave]

/-- A release's leaving is the strip's leaving, with a grant test after it exactly where its computation was
abandoned. -/
theorem State.leaveAndGrant_cases (s : State) (k : CopySlot) (t : Strip) :
    s.computes (t.keyIn k) = true ∧ s.leaveAndGrant k t = (s.leave k t true).grantTest ∨
      s.computes (t.keyIn k) = false ∧ s.leaveAndGrant k t = s.leave k t true := by
  unfold State.leaveAndGrant
  cases h : s.computes (t.keyIn k)
  · exact .inr ⟨rfl, rfl⟩
  · exact .inl ⟨rfl, rfl⟩

@[simp] theorem State.leaveAndGrant_copies (s : State) (k : CopySlot) (t : Strip) :
    (s.leaveAndGrant k t).copies = (s.leave k t true).copies := by
  obtain ⟨-, e⟩ | ⟨-, e⟩ := s.leaveAndGrant_cases k t <;> simp [e]
@[simp] theorem State.leaveAndGrant_relief (s : State) (k : CopySlot) (t : Strip) :
    (s.leaveAndGrant k t).relief = (s.leave k t true).relief := by
  obtain ⟨-, e⟩ | ⟨-, e⟩ := s.leaveAndGrant_cases k t <;> simp [e]
@[simp] theorem State.leaveAndGrant_ports (s : State) (k : CopySlot) (t : Strip) :
    (s.leaveAndGrant k t).ports = s.ports := by
  obtain ⟨-, e⟩ | ⟨-, e⟩ := s.leaveAndGrant_cases k t <;> simp [e]

/-! ## Hand-on work -/

theorem insertAt_perm {α : Type} (i : Nat) (x : α) (l : List α) : (insertAt i x l).Perm (x :: l) := by
  induction l generalizing i with
  | nil => cases i <;> exact .refl _
  | cons y l ih =>
    cases i with
    | zero => exact .refl _
    | succ i => exact ((ih i).cons y).trans (.swap x y l)

/-- Whatever number selects it, the order is one of the same strips. -/
theorem permute_perm {α : Type} (c : Nat) (l : List α) : (permute c l).Perm l := by
  induction l generalizing c with
  | nil => exact .refl _
  | cons x l ih => exact (insertAt_perm _ _ _).trans ((ih _).cons x)

/-- The piece picked stands somewhere among the pieces, and the rest stands as it stood. -/
theorem pick_split {α : Type} (i : Nat) (x : α) (l : List α) :
    ∃ before after, x :: l = before ++ (pick i x l).1 :: after ∧ (pick i x l).2 = before ++ after := by
  induction l generalizing i x with
  | nil => exact ⟨[], [], rfl, rfl⟩
  | cons y l ih =>
    cases i with
    | zero => exact ⟨[], y :: l, rfl, rfl⟩
    | succ i =>
      obtain ⟨b, a, h1, h2⟩ := ih i y
      exact ⟨x :: b, a, congrArg (x :: ·) h1, congrArg (x :: ·) h2⟩

/-- Every piece is picked at its place. -/
theorem pick_at {α : Type} (before : List α) (c : α) (after : List α) (x : α) (l : List α)
    (h : before ++ c :: after = x :: l) : pick before.length x l = (c, before ++ after) := by
  induction before generalizing x l with
  | nil => cases h; cases after <;> rfl
  | cons b before ih =>
    cases before with
    | nil => cases h; cases after <;> rfl
    | cons d before =>
      cases h
      have := ih d (before ++ c :: after) rfl
      simp_all [pick]

/-- The pieces a list of work can come to: an evaluation sets off at most one more. -/
def worth (cs : List Chore) : Nat := (cs.map fun c => match c with
  | .evaluate _ => 2
  | .grant => 1
  | .report _ => 1).sum

/-- A piece done, with what it sets off put in its place, leaves less work. -/
theorem worth_setsOff (s : State) (before : List Chore) (c : Chore) (after : List Chore) :
    worth (before ++ after ++ s.setsOff c) < worth (before ++ c :: after) := by
  cases c with
  | evaluate n =>
    have : worth (s.setsOff (.evaluate n)) ≤ 1 := by
      obtain ⟨-, h⟩ | ⟨-, -, -, -, h⟩ := s.autoPrefetch_cases n <;> rw [h] <;> decide
    simp only [worth, List.map_append, List.map_cons, List.sum_append, List.sum_cons] at this ⊢
    omega
  | grant => simp [worth, State.setsOff]
  | report n => simp [worth, State.setsOff]

theorem worth_le (cs : List Chore) : worth cs ≤ 2 * cs.length := by
  induction cs with
  | nil => exact Nat.le_refl 0
  | cons c cs ih => cases c <;> simp only [worth, List.map_cons, List.sum_cons, List.length_cons] at ih ⊢ <;> omega

/-- Whatever number orders it, work worked through with enough fuel is work done. -/
theorem workThrough_done (fuel c : Nat) (s : State) (ts : List Chore) (h : worth ts ≤ fuel) :
    WorkDone s ts (workThrough fuel c s ts) := by
  induction fuel generalizing c s ts with
  | zero =>
    cases ts with
    | nil => exact .finished s
    | cons x l => cases x <;> simp [worth] at h
  | succ fuel ih =>
    cases ts with
    | nil => exact .finished s
    | cons x l =>
      obtain ⟨b, a, h1, h2⟩ := pick_split (c % (l.length + 1)) x l
      rw [workThrough, h1, h2]
      refine .piece _ _ _ _ _ (ih _ _ _ ?_)
      have := worth_setsOff s b (pick (c % (l.length + 1)) x l).1 a
      rw [← h1] at this
      omega

/-- Every way to do the work is selected by some number: no order is left out. -/
theorem workThrough_selects {s t : State} {ts : List Chore} (h : WorkDone s ts t) (fuel : Nat)
    (hf : worth ts ≤ fuel) : ∃ c, workThrough fuel c s ts = t := by
  induction h generalizing fuel with
  | finished s => exact ⟨0, by cases fuel <;> rfl⟩
  | piece s t b c a rest ih =>
    have hw := worth_setsOff s b c a
    obtain ⟨x, l, hx⟩ : ∃ x l, b ++ c :: a = x :: l := by cases b <;> exact ⟨_, _, rfl⟩
    match fuel with
    | 0 => omega
    | fuel + 1 =>
      obtain ⟨d, hd⟩ := ih fuel (by omega)
      have hlen : b.length < l.length + 1 := by
        have := congrArg List.length hx
        simp only [List.length_append, List.length_cons] at this
        omega
      refine ⟨b.length + (l.length + 1) * d, ?_⟩
      rw [hx, workThrough, Nat.add_mul_mod_self_left, Nat.mod_eq_of_lt hlen, Nat.add_mul_div_left _ _ (by omega),
        Nat.div_eq_of_lt hlen, Nat.zero_add, pick_at b c a x l hx]
      exact hd

/-- Hand-on work is its pieces, and what they set off, done in some order. -/
theorem State.handOn_done (s : State) (ts : List Chore) :
    WorkDone { s with choices := s.choices + 1 } ts (s.handOn ts) :=
  workThrough_done _ _ _ _ (worth_le ts)

/-- What every piece keeps, all of them keep. -/
theorem WorkDone.induct {P : State → Prop} {s t : State} {ts : List Chore} (w : WorkDone s ts t) (h : P s)
    (step : ∀ u, ∀ c, c ∈ ts ∨ c = .grant → P u → P (u.perform c)) : P t := by
  induction w with
  | finished s => exact h
  | piece s t b c a rest ih =>
    refine ih (step s c (.inl (by simp)) h) fun u d hd => step u d ?_
    rcases hd with hd | rfl
    · simp only [List.mem_append, List.mem_cons] at hd ⊢
      rcases hd with (hb | ha) | hs
      · exact .inl (.inl hb)
      · exact .inl (.inr (.inr ha))
      · right
        cases c with
        | evaluate n => obtain ⟨-, e⟩ | ⟨-, -, -, -, e⟩ := s.autoPrefetch_cases n <;> simp_all
        | grant => cases hs
        | report n => cases hs
    · exact .inr rfl

/-- What every piece keeps, and what does not look at the count of free orders, hand-on work keeps. -/
theorem State.handOn_induct {P : State → Prop} (s : State) (ts : List Chore)
    (h : P { s with choices := s.choices + 1 }) (step : ∀ u, ∀ c, c ∈ ts ∨ c = .grant → P u → P (u.perform c)) :
    P (s.handOn ts) :=
  (s.handOn_done ts).induct h step

end Sys2Proof.Machine
end

