-- ==== Sys2Proof/Laws/PerInstr.lean ====
section
/-! SUPPORT. Statements made of every command, one lemma per constructor. -/

namespace Sys2Proof.Laws

/-- A command has a frame exactly when R169 gives it a command code; a bad frame, a status poll and the device's own
events have neither. -/
def CodedFrame.Statement (i : Instr) : Prop := (encodeFrame i).isSome = (commandCode i).isSome

theorem CodedFrame.fetch (p : PortId) (crcGood : Bool) (clocked : Nat) : CodedFrame.Statement (.fetch p crcGood clocked) := rfl
theorem CodedFrame.statusPoll (p : PortId) (phase : PollPhase) : CodedFrame.Statement (.statusPoll p phase) := rfl
theorem CodedFrame.status (p : PortId) : CodedFrame.Statement (.status p) := rfl
theorem CodedFrame.badFrame (p : PortId) (flaw : FrameFlaw) : CodedFrame.Statement (.badFrame p flaw) := rfl
theorem CodedFrame.clearEvents (p : PortId) (mask : Word) : CodedFrame.Statement (.clearEvents p mask) := rfl
theorem CodedFrame.setAttention (p : PortId) (mask : Word) (term : Byte) : CodedFrame.Statement (.setAttention p mask term) := rfl
theorem CodedFrame.portReset (p : PortId) : CodedFrame.Statement (.portReset p) := rfl
theorem CodedFrame.warmReset : CodedFrame.Statement (.warmReset) := rfl
theorem CodedFrame.powerOn (resetHigh : Bool) : CodedFrame.Statement (.powerOn resetHigh) := rfl
theorem CodedFrame.resetPin (periods : Nat) : CodedFrame.Statement (.resetPin periods) := rfl
theorem CodedFrame.resetRelease : CodedFrame.Statement (.resetRelease) := rfl
theorem CodedFrame.millisecondTick (n : SpindleId) : CodedFrame.Statement (.millisecondTick n) := rfl
theorem CodedFrame.leaseExpiry (n : SpindleId) : CodedFrame.Statement (.leaseExpiry n) := rfl
theorem CodedFrame.holdCountdownEnd (n : SpindleId) : CodedFrame.Statement (.holdCountdownEnd n) := rfl
theorem CodedFrame.openTile (tx ty : Byte) : CodedFrame.Statement (.openTile tx ty) := rfl
theorem CodedFrame.rescanPreloadCompletion : CodedFrame.Statement (.rescanPreloadCompletion) := rfl
theorem CodedFrame.putSamples (tx ty : Byte) (offset : Word) (samples : List Word) : CodedFrame.Statement (.putSamples tx ty offset samples) := rfl
theorem CodedFrame.viewStaging (tx ty : Byte) (offset : Word) (count : Byte) : CodedFrame.Statement (.viewStaging tx ty offset count) := rfl
theorem CodedFrame.sealTile (tx ty : Byte) (crc : Word) : CodedFrame.Statement (.sealTile tx ty crc) := rfl
theorem CodedFrame.sealCompletion : CodedFrame.Statement (.sealCompletion) := rfl
theorem CodedFrame.dropTile (tx ty : Byte) : CodedFrame.Statement (.dropTile tx ty) := rfl
theorem CodedFrame.defineRelief (mw mh : Word) : CodedFrame.Statement (.defineRelief mw mh) := rfl
theorem CodedFrame.readRelief (iy ix0 : Word) (count : Byte) : CodedFrame.Statement (.readRelief iy ix0 count) := rfl
theorem CodedFrame.defineCopy (args : CopyArgs) : CodedFrame.Statement (.defineCopy args) := rfl
theorem CodedFrame.clearCompletion (slot : CopySlot) : CodedFrame.Statement (.clearCompletion slot) := rfl
theorem CodedFrame.setPass (slot kind : Byte) (stepDown allowance : Word) : CodedFrame.Statement (.setPass slot kind stepDown allowance) := rfl
theorem CodedFrame.startPass (slot : Byte) : CodedFrame.Statement (.startPass slot) := rfl
theorem CodedFrame.pauseCopy (slot : Byte) : CodedFrame.Statement (.pauseCopy slot) := rfl
theorem CodedFrame.resumeCopy (slot : Byte) : CodedFrame.Statement (.resumeCopy slot) := rfl
theorem CodedFrame.closeCopy (slot : Byte) : CodedFrame.Statement (.closeCopy slot) := rfl
theorem CodedFrame.bindSpindle (spindle slot : Byte) : CodedFrame.Statement (.bindSpindle spindle slot) := rfl
theorem CodedFrame.unbindSpindle (spindle : Byte) : CodedFrame.Statement (.unbindSpindle spindle) := rfl
theorem CodedFrame.readFloors (slot : Byte) (cy c0 : Word) (count : Byte) : CodedFrame.Statement (.readFloors slot cy c0 count) := rfl
theorem CodedFrame.readCopy (slot zero : Byte) : CodedFrame.Statement (.readCopy slot zero) := rfl
theorem CodedFrame.loadPlan (slot : Byte) (descriptors : List Descriptor) : CodedFrame.Statement (.loadPlan slot descriptors) := rfl
theorem CodedFrame.clearPlan (slot : Byte) : CodedFrame.Statement (.clearPlan slot) := rfl
theorem CodedFrame.readStrip (slot selector : Byte) (value : Word) : CodedFrame.Statement (.readStrip slot selector value) := rfl
theorem CodedFrame.takeStrip (n : SpindleId) : CodedFrame.Statement (.takeStrip n) := rfl
theorem CodedFrame.setPrefetch (n : SpindleId) (threshold : Word) : CodedFrame.Statement (.setPrefetch n threshold) := rfl
theorem CodedFrame.computeCell : CodedFrame.Statement (.computeCell) := rfl
theorem CodedFrame.drawTargets (n : SpindleId) (count : Byte) : CodedFrame.Statement (.drawTargets n count) := rfl
theorem CodedFrame.rewindStrip (n : SpindleId) : CodedFrame.Statement (.rewindStrip n) := rfl
theorem CodedFrame.renew (n : SpindleId) : CodedFrame.Statement (.renew n) := rfl
theorem CodedFrame.releaseFence (slot : Byte) (index : Word) (action : Byte) : CodedFrame.Statement (.releaseFence slot index action) := rfl
theorem CodedFrame.holdSpindle (spindle : Byte) (time : Word) : CodedFrame.Statement (.holdSpindle spindle time) := rfl
theorem CodedFrame.reportCut (n : SpindleId) (slot : Byte) (index : Word) (issue : Byte) (floors : List Depth) : CodedFrame.Statement (.reportCut n slot index issue floors) := rfl
theorem CodedFrame.mergeCell (n : SpindleId) : CodedFrame.Statement (.mergeCell n) := rfl
theorem CodedFrame.postOrder (spindle : Byte) (content : BitVec 64) : CodedFrame.Statement (.postOrder spindle content) := rfl
theorem CodedFrame.postNote (n : SpindleId) (content : BitVec 64) : CodedFrame.Statement (.postNote n content) := rfl
theorem CodedFrame.readOrder (n : SpindleId) : CodedFrame.Statement (.readOrder n) := rfl
theorem CodedFrame.readNote (spindle : Byte) : CodedFrame.Statement (.readNote spindle) := rfl

end Sys2Proof.Laws
end

