-- ==== Sys2Proof/Laws/Queue.lean ====
section
/-! SUPPORT. The queue of waiting commands stands beside the device: what is read of a state does not depend on it, and every shared operation leaves with another queue what it leaves with this one (log 1). -/

namespace Sys2Proof.Machine

/-- The state with another queue of waiting commands. -/
def State.withQueue (s : State) (q : List Instr) : State := { s with pending := q }

section
variable (s : State) (q : List Instr)

/-! ## What reading the state finds -/

@[simp] theorem State.withQueue_relief : (s.withQueue q).relief = s.relief := rfl
@[simp] theorem State.withQueue_staging : (s.withQueue q).staging = s.staging := rfl
@[simp] theorem State.withQueue_copies : (s.withQueue q).copies = s.copies := rfl
@[simp] theorem State.withQueue_engine : (s.withQueue q).engine = s.engine := rfl
@[simp] theorem State.withQueue_spindles : (s.withQueue q).spindles = s.spindles := rfl
@[simp] theorem State.withQueue_ports : (s.withQueue q).ports = s.ports := rfl
@[simp] theorem State.withQueue_inReset : (s.withQueue q).inReset = s.inReset := rfl
@[simp] theorem State.withQueue_choices : (s.withQueue q).choices = s.choices := rfl
@[simp] theorem State.withQueue_pending : (s.withQueue q).pending = q := rfl
@[simp] theorem State.withQueue_withQueue (r : List Instr) : (s.withQueue q).withQueue r = s.withQueue r := rfl

/-- The queue replaced in a choice of two states. -/
theorem State.withQueue_ite (c : Prop) [Decidable c] (a b : State) :
    (if c then a else b).withQueue q = if c then a.withQueue q else b.withQueue q := by split <;> rfl

/-- A choice between two states, made on a condition that does not look at the queue. -/
theorem State.ite_withQueue {q : List Instr} {c c' : Prop} [Decidable c] [Decidable c'] {a b a' b' : State}
    (h : c' ↔ c) (ha : a' = a.withQueue q) (hb : b' = b.withQueue q) :
    (if c' then a' else b') = (if c then a else b).withQueue q := by
  subst ha hb; split <;> split <;> first | rfl | simp_all

@[simp] theorem State.port_withQueue (p : PortId) : (s.withQueue q).port p = s.port p := rfl
@[simp] theorem State.copy_withQueue (k : CopySlot) : (s.withQueue q).copy k = s.copy k := rfl
@[simp] theorem State.spindle_withQueue (n : SpindleId) : (s.withQueue q).spindle n = s.spindle n := rfl
@[simp] theorem State.strip?_withQueue (k : StripKey) : (s.withQueue q).strip? k = s.strip? k := rfl
@[simp] theorem State.frameCounts_withQueue (p : PortId) : (s.withQueue q).frameCounts p = s.frameCounts p := rfl
@[simp] theorem State.fallStatus_withQueue (p : PortId) : (s.withQueue q).fallStatus p = s.fallStatus p := by
  simp only [State.fallStatus, State.port_withQueue, State.statusOf]; cases p <;> rfl
@[simp] theorem State.findSlot_withQueue (k : TileKey) : (s.withQueue q).findSlot k = s.findSlot k := rfl
@[simp] theorem State.freeSlot_withQueue : (s.withQueue q).freeSlot = s.freeSlot := rfl
@[simp] theorem State.heldIn_withQueue (h : Held) (st : StripState) :
    (s.withQueue q).heldIn h st = s.heldIn h st := rfl
@[simp] theorem State.issuedStrips_withQueue (n : SpindleId) :
    (s.withQueue q).issuedStrips n = s.issuedStrips n := rfl
@[simp] theorem State.boundTo_withQueue (k : CopySlot) : (s.withQueue q).boundTo k = s.boundTo k := rfl
@[simp] theorem State.computes_withQueue (k : StripKey) : (s.withQueue q).computes k = s.computes k := rfl
@[simp] theorem State.grantee_withQueue : (s.withQueue q).grantee = s.grantee := rfl
@[simp] theorem State.search_withQueue (n : SpindleId) (k : CopySlot) :
    (s.withQueue q).search n k = s.search n k := rfl
@[simp] theorem State.tileFailure_withQueue (n : SpindleId) (k : CopySlot) :
    (s.withQueue q).tileFailure n k = s.tileFailure n k := rfl
@[simp] theorem State.missingTile_withQueue (k : CopySlot) (t : Strip) :
    (s.withQueue q).missingTile k t = s.missingTile k t := rfl
@[simp] theorem State.prefetchCopy_withQueue (n : SpindleId) :
    (s.withQueue q).prefetchCopy n = s.prefetchCopy n := rfl
@[simp] theorem State.prefetched_withQueue (n : SpindleId) :
    (s.withQueue q).prefetched n = s.prefetched n := rfl
@[simp] theorem State.setsOff_withQueue (c : Chore) : (s.withQueue q).setsOff c = s.setsOff c := by cases c <;> rfl
@[simp] theorem State.footprintOf_withQueue (k : CopySlot) (t : Strip) :
    (s.withQueue q).footprintOf k t = s.footprintOf k t := rfl
@[simp] theorem State.reportCase_withQueue (n : SpindleId) (r : Report) :
    (s.withQueue q).reportCase n r = s.reportCase n r := rfl
@[simp] theorem State.leavingChores_withQueue (k : CopySlot) (b : Bool) :
    (s.withQueue q).leavingChores k b = s.leavingChores k b := rfl
@[simp] theorem State.statusItems_withQueue (p : PortId) :
    (s.withQueue q).statusItems p = s.statusItems p := by cases p <;> rfl
@[simp] theorem State.expiring_withQueue (h : Held) : (s.withQueue q).expiring h = s.expiring h := rfl
@[simp] theorem State.preloadingSlot_withQueue : (s.withQueue q).preloadingSlot = s.preloadingSlot := rfl
@[simp] theorem State.sealingSlot_withQueue : (s.withQueue q).sealingSlot = s.sealingSlot := rfl
@[simp] theorem State.reliefInUse_withQueue : (s.withQueue q).reliefInUse = s.reliefInUse := rfl
@[simp] theorem State.withdrawable_withQueue (k : CopySlot) (t : Strip) :
    (s.withQueue q).withdrawable k t = s.withdrawable k t := rfl
@[simp] theorem State.mergesInto_withQueue (k : CopySlot) : (s.withQueue q).mergesInto k = s.mergesInto k := rfl
@[simp] theorem State.copyItems_withQueue (k : CopySlot) : (s.withQueue q).copyItems k = s.copyItems k := rfl
@[simp] theorem State.drawn_withQueue (n : SpindleId) (c : Nat) : (s.withQueue q).drawn n c = s.drawn n c := rfl
@[simp] theorem State.drawnStrips_withQueue (n : SpindleId) (es : List Entry) :
    (s.withQueue q).drawnStrips n es = s.drawnStrips n es := rfl
@[simp] theorem State.computeTarget_withQueue (c : Computation) (r : Nat) :
    (s.withQueue q).computeTarget c r = s.computeTarget c r := rfl
@[simp] theorem State.pausesOnSpoil_withQueue (k : CopySlot) (m : Merge) :
    (s.withQueue q).pausesOnSpoil k m = s.pausesOnSpoil k m := rfl
@[simp] theorem State.mergedStrip_withQueue (m : Merge) : (s.withQueue q).mergedStrip m = s.mergedStrip m := rfl
@[simp] theorem State.mergeOutcome_withQueue (m : Merge) : (s.withQueue q).mergeOutcome m = s.mergeOutcome m := rfl
@[simp] theorem State.completionChores_withQueue (n : SpindleId) (m : Merge) :
    (s.withQueue q).completionChores n m = s.completionChores n m := rfl

/-! ## What the shared operations leave -/

@[simp] theorem State.setPort_withQueue (p : PortId) (x : Port) :
    (s.withQueue q).setPort p x = (s.setPort p x).withQueue q := rfl
@[simp] theorem State.modifyPort_withQueue (p : PortId) (f : Port → Port) :
    (s.withQueue q).modifyPort p f = (s.modifyPort p f).withQueue q := rfl
@[simp] theorem State.setCopy_withQueue (k : CopySlot) (x : Copy) :
    (s.withQueue q).setCopy k x = (s.setCopy k x).withQueue q := rfl
@[simp] theorem State.modifyCopy_withQueue (k : CopySlot) (f : Copy → Copy) :
    (s.withQueue q).modifyCopy k f = (s.modifyCopy k f).withQueue q := rfl
@[simp] theorem State.setSpindle_withQueue (n : SpindleId) (x : Spindle) :
    (s.withQueue q).setSpindle n x = (s.setSpindle n x).withQueue q := rfl
@[simp] theorem State.modifySpindle_withQueue (n : SpindleId) (f : Spindle → Spindle) :
    (s.withQueue q).modifySpindle n f = (s.modifySpindle n f).withQueue q := rfl
@[simp] theorem State.setRelief_withQueue (r : Relief) :
    (s.withQueue q).setRelief r = (s.setRelief r).withQueue q := rfl
@[simp] theorem State.setStaging_withQueue (i : Fin 4) (x : Option Slot) :
    (s.withQueue q).setStaging i x = (s.setStaging i x).withQueue q := rfl
@[simp] theorem State.setEngine_withQueue (e : Engine) :
    (s.withQueue q).setEngine e = (s.setEngine e).withQueue q := rfl
@[simp] theorem State.latchPlan_withQueue (l : PlanLatch) :
    (s.withQueue q).latchPlan l = (s.latchPlan l).withQueue q := rfl
@[simp] theorem State.latchScan_withQueue (l : ScanLatch) :
    (s.withQueue q).latchScan l = (s.latchScan l).withQueue q := rfl
@[simp] theorem State.latchSpindle_withQueue (n : SpindleId) (l : SpindleLatch) :
    (s.withQueue q).latchSpindle n l = (s.latchSpindle n l).withQueue q := rfl
@[simp] theorem State.answer_withQueue (p : PortId) (c : AnswerCode) (d : List Byte) :
    (s.withQueue q).answer p c d = (s.answer p c d).withQueue q := rfl
@[simp] theorem State.dropFrame_withQueue (p : PortId) :
    (s.withQueue q).dropFrame p = (s.dropFrame p).withQueue q := rfl
@[simp] theorem State.endFrame_withQueue (p : PortId) (e : List Byte) :
    (s.withQueue q).endFrame p e = (s.endFrame p e).withQueue q := by
  simp [State.endFrame]
@[simp] theorem State.take_withQueue (p : PortId) :
    (s.withQueue q).take p = (s.take p).withQueue q := by simp [State.take]

/-- A request commutes with replacing the queue if its own rule does. -/
theorem State.request_withQueue (p : PortId) (f : State → State) (hf : ∀ s, f (s.withQueue q) = (f s).withQueue q) :
    (s.withQueue q).request p f = (s.request p f).withQueue q := by
  simp only [State.request, frameCounts_withQueue, fallStatus_withQueue, endFrame_withQueue, take_withQueue,
    dropFrame_withQueue, hf, withQueue_ite]
/-- A request taken in any port state commutes with replacing the queue if its own rule does. -/
theorem State.requestAnyState_withQueue (p : PortId)
    (f : State → State) (hf : ∀ s, f (s.withQueue q) = (f s).withQueue q) :
    (s.withQueue q).requestAnyState p f = (s.requestAnyState p f).withQueue q := by
  simp only [State.requestAnyState, frameCounts_withQueue, endFrame_withQueue,
    dropFrame_withQueue, hf, withQueue_ite]
/-- A request that carries a copy slot commutes with replacing the queue if its own rule does. -/
theorem State.onCopy_withQueue (b : Byte) (f : CopySlot → State → State)
    (hf : ∀ k s, f k (s.withQueue q) = (f k s).withQueue q) :
    (s.withQueue q).onCopy b f = (s.onCopy b f).withQueue q := by
  refine State.request_withQueue _ _ _ _ fun s => ?_
  cases slotOf b <;> simp [hf]
/-- Operations done one after another commute with replacing the queue if each does. -/
theorem State.foldl_withQueue {α : Type} (f : State → α → State)
    (hf : ∀ s a, f (s.withQueue q) a = (f s a).withQueue q) (l : List α) :
    l.foldl f (s.withQueue q) = (l.foldl f s).withQueue q := by
  induction l generalizing s with
  | nil => rfl
  | cons a l ih => simp [hf, ih]

@[simp] theorem State.updateStrip_withQueue (k : StripKey) (f : Strip → Strip) :
    (s.withQueue q).updateStrip k f = (s.updateStrip k f).withQueue q := rfl
@[simp] theorem State.mapNamed_withQueue (hs : List Held) (f : Copy → Strip → Strip) :
    (s.withQueue q).mapNamed hs f = (s.mapNamed hs f).withQueue q := rfl
@[simp] theorem State.freeStaging_withQueue (i : Fin 4) :
    (s.withQueue q).freeStaging i = (s.freeStaging i).withQueue q := by
  unfold State.freeStaging; simp only [State.withQueue_staging, State.withQueue_relief]; split <;> rfl
@[simp] theorem State.abandon_withQueue (k : StripKey) : (s.withQueue q).abandon k = (s.abandon k).withQueue q :=
  State.ite_withQueue Iff.rfl rfl rfl
@[simp] theorem State.releaseTiles_withQueue (t : Strip) :
    (s.withQueue q).releaseTiles t = (s.releaseTiles t).withQueue q := by
  unfold State.releaseTiles; split <;> rfl
@[simp] theorem State.releaseHolder_withQueue (k : CopySlot) (t : Strip) (b : Bool) :
    (s.withQueue q).releaseHolder k t b = (s.releaseHolder k t b).withQueue q := by
  unfold State.releaseHolder; split <;> rfl
@[simp] theorem State.leave_withQueue (k : CopySlot) (t : Strip) (b : Bool) :
    (s.withQueue q).leave k t b = (s.leave k t b).withQueue q := by
  simp [State.leave]
@[simp] theorem State.completePass_withQueue (k : CopySlot) :
    (s.withQueue q).completePass k = (s.completePass k).withQueue q := rfl
@[simp] theorem State.testPass_withQueue (k : CopySlot) : (s.withQueue q).testPass k = (s.testPass k).withQueue q :=
  State.ite_withQueue Iff.rfl rfl rfl
@[simp] theorem State.restartLeases_withQueue (hs : List Held) :
    (s.withQueue q).restartLeases hs = (s.restartLeases hs).withQueue q := rfl
@[simp] theorem State.fenceAll_withQueue (n : SpindleId) (hs : List Held) :
    (s.withQueue q).fenceAll n hs = (s.fenceAll n hs).withQueue q := rfl
@[simp] theorem State.setHold_withQueue (n : SpindleId) (t : Nat) (o : HoldOrigin) :
    (s.withQueue q).setHold n t o = (s.setHold n t o).withQueue q := rfl
@[simp] theorem State.endHold_withQueue (n : SpindleId) : (s.withQueue q).endHold n = (s.endHold n).withQueue q := rfl
@[simp] theorem State.startComputation_withQueue (n : SpindleId) (h : Held) (t : Strip) :
    (s.withQueue q).startComputation n h t = (s.startComputation n h t).withQueue q := rfl
@[simp] theorem State.grantTest_withQueue : (s.withQueue q).grantTest = s.grantTest.withQueue q := by
  unfold State.grantTest
  simp only [State.withQueue_engine, State.grantee_withQueue, State.spindle_withQueue, State.strip?_withQueue]
  repeat' split
  all_goals rfl
@[simp] theorem State.leaveAndGrant_withQueue (k : CopySlot) (t : Strip) :
    (s.withQueue q).leaveAndGrant k t = (s.leaveAndGrant k t).withQueue q := by
  simp [State.leaveAndGrant, State.withQueue_ite]
@[simp] theorem State.issueStrip_withQueue (n : SpindleId) (k : CopySlot) (t : Strip) :
    (s.withQueue q).issueStrip n k t = (s.issueStrip n k t).withQueue q := rfl
@[simp] theorem State.issue_withQueue (n : SpindleId) (k : CopySlot) (t : Strip) :
    (s.withQueue q).issue n k t = (s.issue n k t).withQueue q := by
  simp [State.issue]
@[simp] theorem State.offerWanted_withQueue (k : TileKey) :
    (s.withQueue q).offerWanted k = (s.offerWanted k).withQueue q :=
  State.ite_withQueue Iff.rfl rfl rfl
@[simp] theorem State.scanHold_withQueue (n : SpindleId) (w : Nat) :
    (s.withQueue q).scanHold n w = (s.scanHold n w).withQueue q :=
  State.ite_withQueue Iff.rfl rfl rfl
@[simp] theorem State.autoPrefetch_withQueue (n : SpindleId) :
    (s.withQueue q).autoPrefetch n = (s.autoPrefetch n).withQueue q := by
  unfold State.autoPrefetch
  rw [State.prefetched_withQueue]
  split <;> rfl
@[simp] theorem State.decideReport_withQueue (n : SpindleId) (r : Report) :
    (s.withQueue q).decideReport n r = (s.decideReport n r).withQueue q := by
  unfold State.decideReport
  simp only [State.reportCase_withQueue, State.spindle_withQueue]
  repeat' split
  all_goals rfl
@[simp] theorem State.decideWaiting_withQueue (n : SpindleId) :
    (s.withQueue q).decideWaiting n = (s.decideWaiting n).withQueue q := by
  unfold State.decideWaiting
  simp only [State.spindle_withQueue, State.modifySpindle_withQueue, State.decideReport_withQueue]
  split <;> rfl
@[simp] theorem State.perform_withQueue (c : Chore) : (s.withQueue q).perform c = (s.perform c).withQueue q := by
  cases c <;> simp [State.perform]
theorem workThrough_withQueue (fuel c : Nat) (ts : List Chore) :
    workThrough fuel c (s.withQueue q) ts = (workThrough fuel c s ts).withQueue q := by
  induction fuel generalizing c s ts with
  | zero => rfl
  | succ fuel ih => cases ts with
    | nil => rfl
    | cons x l => simp [workThrough, ih]
@[simp] theorem State.handOn_withQueue (ts : List Chore) : (s.withQueue q).handOn ts = (s.handOn ts).withQueue q :=
  workThrough_withQueue { s with choices := s.choices + 1 } q _ _ ts

@[simp] theorem State.poll_withQueue (p : PortId) (ph : PollPhase) :
    (s.withQueue q).poll p ph = (s.poll p ph).withQueue q := by
  cases ph
  · exact State.ite_withQueue Iff.rfl (by simp) rfl
  · exact State.ite_withQueue Iff.rfl (by simp) rfl
@[simp] theorem State.resetPort_withQueue (p : PortId) :
    (s.withQueue q).resetPort p = (s.resetPort p).withQueue q := rfl
@[simp] theorem State.resetSpindle_withQueue (n : SpindleId) :
    (s.withQueue q).resetSpindle n = (s.resetSpindle n).withQueue q := by
  unfold State.resetSpindle
  rw [← State.grantTest_withQueue]
  exact congrArg State.grantTest (State.ite_withQueue Iff.rfl rfl rfl)
@[simp] theorem State.resetScan_withQueue : (s.withQueue q).resetScan = s.resetScan.withQueue q :=
  State.foldl_withQueue s q _ (fun s i => s.freeStaging_withQueue q i) _
@[simp] theorem State.expire_withQueue (n : SpindleId) (hs : List Held) :
    (s.withQueue q).expire n hs = (s.expire n hs).withQueue q :=
  State.ite_withQueue Iff.rfl rfl rfl
@[simp] theorem State.leaseTick_withQueue (n : SpindleId) :
    (s.withQueue q).leaseTick n = (s.leaseTick n).withQueue q :=
  (s.advanceLeases n).expire_withQueue q n _
@[simp] theorem State.holdTick_withQueue (n : SpindleId) : (s.withQueue q).holdTick n = (s.holdTick n).withQueue q :=
  State.ite_withQueue Iff.rfl (by simp) rfl
@[simp] theorem State.cancelScanHolds_withQueue : (s.withQueue q).cancelScanHolds = s.cancelScanHolds.withQueue q := by
  unfold State.cancelScanHolds
  exact State.foldl_withQueue s q _ (fun s n =>
    State.ite_withQueue (a := s.endHold n) (b := s) Iff.rfl rfl rfl) allSix
@[simp] theorem State.withdraw_withQueue (k : CopySlot) (t : Strip) :
    (s.withQueue q).withdraw k t = (s.withdraw k t).withQueue q := by
  unfold State.withdraw; split <;> simp
@[simp] theorem State.withdrawAll_withQueue (k : CopySlot) :
    (s.withQueue q).withdrawAll k = (s.withdrawAll k).withQueue q := by
  refine State.ite_withQueue Iff.rfl rfl ?_
  rw [← State.handOn_withQueue, ← State.foldl_withQueue { s with choices := s.choices + 1 } q
    (fun (a : State) t => a.withdraw k t) (fun s t => s.withdraw_withQueue q k t)]
  rfl
@[simp] theorem State.freeCopy_withQueue (k : CopySlot) :
    (s.withQueue q).freeCopy k = (s.freeCopy k).withQueue q := by
  have h := State.foldl_withQueue s q (fun s t => s.leave k t false) (fun s t => s.leave_withQueue q k t false)
    ((s.copy k).queue.filter fun t => decide (t.state ≠ .planned))
  unfold State.freeCopy
  simp only [State.copy_withQueue] at h ⊢
  rw [h]; rfl
@[simp] theorem State.afterLoad_withQueue (k : CopySlot) (a : Nat) (c : Bool) :
    (s.withQueue q).afterLoad k a c = (s.afterLoad k a c).withQueue q := by
  refine State.ite_withQueue Iff.rfl ?_ rfl
  have h : (if c then (s.withQueue q).testPass k else s.withQueue q) = (if c then s.testPass k else s).withQueue q :=
    State.ite_withQueue Iff.rfl (by simp) rfl
  simp only [h]
  exact State.ite_withQueue Iff.rfl (by simp) rfl
@[simp] theorem State.waitForScan_withQueue (n : SpindleId) (k : CopySlot) (t : TileKey) :
    (s.withQueue q).waitForScan n k t = (s.waitForScan n k t).withQueue q := by simp [State.waitForScan]
@[simp] theorem State.noStrip_withQueue (n : SpindleId) (k : CopySlot) :
    (s.withQueue q).noStrip n k = (s.noStrip n k).withQueue q := by
  refine State.ite_withQueue Iff.rfl rfl ?_
  simp only [State.tileFailure_withQueue, State.missingTile_withQueue]
  repeat' split
  all_goals simp
@[simp] theorem State.takeFrom_withQueue (n : SpindleId) (k : CopySlot) :
    (s.withQueue q).takeFrom n k = (s.takeFrom n k).withQueue q := by
  unfold State.takeFrom; simp only [State.search_withQueue]; split <;> simp
@[simp] theorem State.placeCell_withQueue (c : Computation) (g : Geometry) :
    (s.withQueue q).placeCell c g = (s.placeCell c g).withQueue q := by
  unfold State.placeCell
  simp only [State.computeTarget_withQueue, State.modifyCopy_withQueue, State.modifySpindle_withQueue,
    State.latchSpindle_withQueue, State.ite_withQueue Iff.rfl rfl rfl, State.withQueue_engine, State.setEngine_withQueue]
@[simp] theorem State.completeComputation_withQueue (c : Computation) :
    (s.withQueue q).completeComputation c = (s.completeComputation c).withQueue q := by simp [State.completeComputation]
@[simp] theorem State.requeueFenced_withQueue (k : CopySlot) (t : Strip) :
    (s.withQueue q).requeueFenced k t = (s.requeueFenced k t).withQueue q := by simp [State.requeueFenced]
@[simp] theorem State.discardFenced_withQueue (k : CopySlot) (t : Strip) :
    (s.withQueue q).discardFenced k t = (s.discardFenced k t).withQueue q := by simp [State.discardFenced]
@[simp] theorem State.releaseStrip_withQueue (k : CopySlot) (t : Strip) (a : FenceAction) :
    (s.withQueue q).releaseStrip k t a = (s.releaseStrip k t a).withQueue q := by
  cases a <;> simp [State.releaseStrip]
@[simp] theorem State.mergeOne_withQueue (n : SpindleId) (m : Merge) (r : Nat) :
    (s.withQueue q).mergeOne n m r = (s.mergeOne n m r).withQueue q := rfl
@[simp] theorem State.settle_withQueue (k : CopySlot) (t : Strip) (o : MergeOutcome) :
    (s.withQueue q).settle k t o = (s.settle k t o).withQueue q := by
  cases o <;> simp [State.settle]
@[simp] theorem State.mergeEvents_withQueue (k : CopySlot) (m : Merge) :
    (s.withQueue q).mergeEvents k m = (s.mergeEvents k m).withQueue q := by
  unfold State.mergeEvents
  by_cases h1 : 1 ≤ m.overcut <;> by_cases h2 : 1 ≤ m.spoil <;> by_cases h3 : s.pausesOnSpoil k m = true <;>
    by_cases h4 : m.kind = .stale <;> simp [h1, h2, h3, h4]
@[simp] theorem State.settleMerge_withQueue (m : Merge) :
    (s.withQueue q).settleMerge m = (s.settleMerge m).withQueue q := by
  unfold State.settleMerge; simp only [State.mergedStrip_withQueue, State.mergeOutcome_withQueue]; split <;> simp
@[simp] theorem State.answerMerge_withQueue (n : SpindleId) (m : Merge) (o : MergeOutcome) (p : Bool) :
    (s.withQueue q).answerMerge n m o p = (s.answerMerge n m o p).withQueue q := State.ite_withQueue Iff.rfl rfl rfl
@[simp] theorem State.completeMerge_withQueue (n : SpindleId) (m : Merge) :
    (s.withQueue q).completeMerge n m = (s.completeMerge n m).withQueue q := by simp [State.completeMerge]
@[simp] theorem State.fenceForUnbind_withQueue (n : SpindleId) :
    (s.withQueue q).fenceForUnbind n = (s.fenceForUnbind n).withQueue q := State.ite_withQueue Iff.rfl rfl rfl
end

end Sys2Proof.Machine
end

