-- ==== Sys2Proof/Tests/Slice0.lean ====
section
/-! SUPPORT. Tests of single steps, with results from the manual's tables, rules and worked examples; and, for each statement that has hypotheses, a state and operands that meet them. -/

namespace Sys2Proof.Tests

open Sys2Proof.Machine

set_option Elab.async false

/-! ## Small states -/

/-- The state a command leaves. -/
def after (c : Instr) (s : State) : State :=
  match exec c s with
  | .next t => t
  | .fault _ => s
  | .refused _ => s

/-- The answer a port holds. -/
def answerOn (s : State) (p : PortId) : Option (AnswerCode × List Byte) :=
  (s.port p).slot.map fun e => (e.code, e.data)

/-- A sealed tile whose first sample is 100 and whose others are missing readings. -/
def sealedTile : Tile := { state := .sealed, sealCount := 1, dependents := 0, current := [(0, 100#16)], spare := [] }

/-- A relief of two tiles by two. -/
def relief2 (t00 t10 : Tile) : Relief where
  mw := 64
  mh := 64
  tiles := [t00, t10, sealedTile, sealedTile]
  sealedCount := 4
  wanted := none

/-- A copy of 40 by 40 cells at 1 ×. -/
def copy1 (st : CopyState) (queue : List Strip) : Copy where
  state := st
  w := 40
  h := 40
  mapping := { ox := 0, oy := 0, sigma := 1024, k := 1024, z0 := 0, limit := 90 }
  f0 := 0
  margin := 4
  tolerance := 20
  leaseTime := 1000
  waitHold := 50
  stopOnSpoil := true
  pass := { kind := .finish, stepDown := 1, allowance := 0 }
  kept := { stepDown := 1, allowance := 0 }
  planClosed := false
  counters := Counters.zero
  floors := []
  queue := queue

/-- A PLANNED strip, FORWARD. -/
def planned (index row first length : Nat) : Strip where
  index := index
  row := row
  first := first
  length := length
  direction := .forward
  state := .planned
  holder := none
  issue := 0#8
  retry := 0
  footprint := none
  lease := none
  underMerge := false

/-- A strip held by spindle n, its lease at its last millisecond. -/
def heldBy (n : SpindleId) (st : StripState) (t : Strip) : Strip :=
  { t with
    state := st
    holder := some n
    issue := 1#8
    footprint := some ⟨0, 0, 0, 0⟩
    lease := if st = .issued then some { remaining := 1, running := true } else none }

/-- The key of a first issue of copy 0. -/
def key (i : Nat) : StripKey := { copy := 0, index := i, issue := 1#8 }

/-- An entry of strip i. -/
def entry (i column target : Nat) : Entry where
  key := key i
  column := column
  target := target
  held := false
  clamped := false
  nothing := false
  first := false
  last := false

/-- A spindle bound to copy 0 that holds strip 0, COMPLETE, with two entries. -/
def holder0 : Spindle :=
  { Spindle.fresh with
    bound := some 0
    issued := [{ key := key 0, status := .complete }]
    queue := [entry 0 0 90, entry 0 1 90] }

/-- A merge of two cells, of which one is left. -/
def merge1 : Merge where
  kind := .heldIssued
  key := key 0
  geometry := { row := 0, first := 0, length := 2, direction := .forward }
  checked := true
  targets := [entry 0 0 90, entry 0 1 90]
  floors := [90, 300]
  ranged := 0
  done := 1
  deepened := 1
  overcut := 0
  shortfall := 0
  spoil := 0
  answers := true

/-- Copy 0 in a state with a queue; spindle 3 as given. -/
def rigIn (st : CopyState) (queue : List Strip) (sp : Spindle) : State :=
  ((State.reset.setRelief (relief2 { sealedTile with dependents := 1 } sealedTile)).setCopy 0
    (copy1 st queue)).setSpindle 2 sp

/-- Copy 0 CUTTING; spindle 3 holds strip 0 ISSUED and COMPLETE; strip 1 is PLANNED. -/
def rig : State := rigIn .cutting [heldBy 2 .issued (planned 0 0 0 2), planned 1 20 0 1] holder0

/-- The same with strip 0 FENCED. -/
def fencedRig : State := rigIn .cutting [heldBy 2 .fenced (planned 0 0 0 2), planned 1 20 0 1] holder0

/-- A staging slot of tile (0, 0). -/
def slot00 (mode : SlotMode) (sealing preloading : Bool) : Slot where
  key := ⟨0, 0⟩
  mode := mode
  samples := [(3, 7#16)]
  sealing := sealing
  preloading := preloading

/-- A relief whose tile (0, 0) is RESCANNING in slot 1. -/
def scanRig (sealing preloading : Bool) : State :=
  (State.reset.setRelief (relief2 { sealedTile with state := .rescanning } sealedTile)).setStaging 1
    (some (slot00 .rescan sealing preloading))

/-- The state with a port put into a port state. -/
def onPort (s : State) (p : PortId) (st : PortState) : State := s.modifyPort p fun x => { x with state := st }

/-! ## WellFormed refuses an ill-formed term for each check -/

theorem test_short_fetch_ill_formed : (Instr.fetch .plan true 2).wellFormed = false := by decide
theorem test_fetch_of_three_bytes_well_formed : (Instr.fetch .plan true 3).wellFormed = true := by decide
theorem test_bad_crc_of_fetch_ill_formed : (Instr.badFrame .scan (.crc 0x01#8)).wellFormed = false := by decide
theorem test_too_many_samples_ill_formed (vs : List Word) (h : vs.length = 256) :
    (Instr.putSamples 0#8 0#8 0#16 vs).wellFormed = false := by
  simp [Instr.wellFormed, h]
theorem test_too_many_floors_ill_formed (fs : List Depth) (h : fs.length = 65536) :
    (Instr.reportCut 0 0#8 0#16 0#8 fs).wellFormed = false := by
  simp [Instr.wellFormed, h]
theorem test_empty_plan_ill_formed : (Instr.loadPlan 0#8 []).wellFormed = false := by decide
theorem test_long_plan_ill_formed (d : Descriptor) :
    (Instr.loadPlan 0#8 (List.replicate 33 d)).wellFormed = false := by
  simp [Instr.wellFormed]
theorem test_full_plan_well_formed (d : Descriptor) :
    (Instr.loadPlan 0#8 (List.replicate 32 d)).wellFormed = true := by
  simp [Instr.wellFormed]

/-! ## Frames, written out from R159, R166, R167, R169 -/

theorem test_crc_check_value :
    crc16 [0x31#8, 0x32#8, 0x33#8, 0x34#8, 0x35#8, 0x36#8, 0x37#8, 0x38#8, 0x39#8] = 0x29B1#16 := by decide +kernel
theorem test_fetch_crc : crc16 [0x01#8] = 0xF1D1#16 := by decide +kernel
theorem test_fetch_frame : decodeFrame .plan [0x01#8, 0xF1#8, 0xD1#8, 0x00#8] = .fetch .plan true 4 := by
  decide +kernel
theorem test_put_samples_frame :
    decodeFrame .scan (withCrc [0x21#8, 6#8, 2#8, 0x03#8, 0xC0#8, 2#8, 0x12#8, 0x34#8, 0xFF#8, 0xFF#8]) =
      .putSamples 6#8 2#8 960#16 [0x1234#16, 0xFFFF#16] := by decide +kernel
theorem test_report_frame :
    decodeFrame (.spindle 2) (withCrc [0x44#8, 1#8, 0#8, 14#8, 1#8, 0#8, 2#8, 0#8, 0x10#8, 0xA6#8, 0#8, 0x10#8, 0x90#8]) =
      .reportCut 2 1#8 14#16 1#8 [4262#24, 4240#24] := by decide +kernel
theorem test_define_copy_frame :
    decodeFrame .plan (withCrc [0x61#8, 2#8, 0#8, 100#8, 0#8, 40#8, 0x02#8, 0x58#8, 0x01#8, 0xF4#8, 0x06#8, 0#8, 0x09#8,
        0xC4#8, 0x04#8, 0x93#8, 0xE0#8, 0#8, 0#8, 0#8, 40#8, 0#8, 20#8, 0#8, 50#8, 0x07#8, 0xD0#8, 1#8]) =
      .defineCopy { slot := 2#8, ox := 100#16, oy := 40#16, w := 600#16, h := 500#16, k := 1536#16, z0 := 2500#16,
                    limit := 300000#24, f0 := 0#24, margin := 40#8, tolerance := 20#16, leaseTime := 50#16,
                    waitHold := 2000#16, stopOnSpoil := 1#8 } := by decide +kernel
theorem test_set_pass_frame :
    decodeFrame .plan (withCrc [0x62#8, 2#8, 1#8, 0x03#8, 0x20#8, 0#8, 150#8]) = .setPass 2#8 1#8 800#16 150#16 := by
  decide +kernel
theorem test_load_plan_frame :
    decodeFrame .plan (withCrc [0x63#8, 1#8, 0xC1#8, 2#8, 0#8, 100#8, 0#8]) =
      .loadPlan 1#8 [{ endMark := true, direction := .reverse, row := 258#14, first := 100#16, lengthCode := 0#8 }] := by
  decide +kernel
theorem test_release_fence_frame :
    decodeFrame .plan (withCrc [0x6B#8, 1#8, 0x0F#8, 0xFF#8, 1#8]) = .releaseFence 1#8 4095#16 1#8 := by decide +kernel
theorem test_hold_frame :
    decodeFrame .plan (withCrc [0x6C#8, 5#8, 0x05#8, 0xDC#8]) = .holdSpindle 5#8 1500#16 := by decide +kernel
theorem test_post_note_frame :
    decodeFrame (.spindle 5) (withCrc [0x47#8, 1#8, 2#8, 3#8, 4#8, 5#8, 6#8, 7#8, 8#8]) =
      .postNote 5 0x0102030405060708#64 := by decide +kernel
theorem test_draw_frame :
    decodeFrame (.spindle 0) (withCrc [0x41#8, 32#8]) = .drawTargets 0 32#8 := by decide +kernel
theorem test_warm_reset_frame : decodeFrame .plan (withCrc [0x73#8]) = .warmReset := by decide +kernel
theorem test_set_attention_frame :
    decodeFrame .scan (withCrc [0x04#8, 0#8, 0x0E#8, 1#8]) = .setAttention .scan 0x000E#16 1#8 := by decide +kernel
theorem test_plan_code_on_scan_port :
    decodeFrame .scan (withCrc [0x6C#8, 5#8, 0x05#8, 0xDC#8]) = .badFrame .scan .code := by decide +kernel
theorem test_two_bytes_are_a_poll : decodeFrame .scan [0x20#8, 1#8] = .statusPoll .scan .whole := by decide
theorem test_table_words_spell_nothing (n w : Nat) (s : State) :
    decodeTableWord n w = none ∧ s.withFetchWord n w = s := ⟨rfl, rfl⟩

/-! ## Answers clocked out -/

theorem test_fetch_delivers_ok :
    ((after (.fetch .plan true 8) (after (.readCopy 9#8 0#8) State.reset)).port .plan).out.map FrameOut.envelope =
      some ([0x82#8, 0#8, 0#8] ++ word2 (crc16 [0x82#8, 0#8, 0#8])) := by decide +kernel
theorem test_fetch_empties_the_slot :
    ((after (.fetch .plan true 8) (after (.readCopy 9#8 0#8) State.reset)).port .plan).state = .idle ∧
      ((after (.fetch .plan true 7) (after (.readCopy 9#8 0#8) State.reset)).port .plan).delivered = true := by
  decide +kernel
theorem test_status_byte_after_reset : State.reset.statusOf .plan = 0x28#8 := by decide
theorem test_status_of_reset :
    (answerOn (after (.status (.spindle 0)) State.reset) (.spindle 0)).map (fun a => (a.1, a.2.take 5)) =
      some (.ok, [0#8, 1#8, 0#8, 0x7E#8, 0#8]) := by decide +kernel
theorem test_bad_put_samples_latches :
    ((after (.badFrame .scan (.crc 0x21#8)) State.reset).port .scan).latches = 0x0005#16 ∧
      ((after (.badFrame .scan (.crc 0x22#8)) State.reset).port .scan).latches = 0x0001#16 := by decide
theorem test_clear_events_releases_the_line :
    ((after (.clearEvents .scan 0x0001#16) State.reset).port .scan).line = false ∧
      answerOn (after (.clearEvents .scan 0x0001#16) State.reset) .scan = some (.ok, [0#8, 1#8, 0#8, 0#8]) := by
  decide +kernel
theorem test_set_attention_stores :
    answerOn (after (.setAttention .scan 0xFFFF#16 1#8) State.reset) .scan = some (.ok, [0#8, 0x0E#8, 1#8]) ∧
      answerOn (after (.setAttention .scan 0xFFFF#16 2#8) State.reset) .scan = some (.badArg, []) := by decide +kernel
theorem test_status_poll_leaves_the_port :
    ((after (.statusPoll .plan .whole) State.reset).port .plan).state = .idle ∧
      ((after (.statusPoll .plan .begun) State.reset).port .plan).frame = .open 0x28#8 := by decide

/-! ## Resets and time -/

theorem test_port_reset_voids_and_fences :
    ((after (.portReset (.spindle 2)) rig).copy 0).queue.map Strip.state = [.fenced, .planned] ∧
      ((after (.portReset (.spindle 2)) rig).spindle 2).issued.map Held.status = [.void] ∧
      ((after (.portReset (.spindle 2)) rig).port .plan).latches = 0x0009#16 := by decide +kernel
theorem test_scan_port_reset_frees :
    (after (.portReset .scan) (scanRig true false)).staging = Four.fill none ∧
      ((after (.portReset .scan) (scanRig true false)).relief.tile? ⟨0, 0⟩).map Tile.state = some .sealed := by
  decide +kernel
theorem test_warm_reset_pauses :
    ((after .warmReset rig).copy 0).state = .paused ∧ ((after .warmReset rig).spindle 2).bound = some 0 ∧
      ((after .warmReset rig).copy 0).queue.map Strip.state = [.fenced, .planned] := by decide +kernel
theorem test_power_on_forgets : (after (.powerOn true) rig).relief.mw = 0 ∧
    ((after (.powerOn true) rig).port .scan).line = true ∧
    ((after (.powerOn false) rig).port .scan).line = false := by decide +kernel
theorem test_reset_pin_counts : (after (.resetPin 24) rig).inReset = false ∧ (after (.resetPin 25) rig).inReset = true := by
  decide +kernel
theorem test_reset_release : (after .resetRelease (after (.resetPin 25) rig)).inReset = false ∧
    ((after .resetRelease (after (.resetPin 25) rig)).port (.spindle 4)).latches = 1#16 := by decide +kernel
theorem test_tick_fences_at_zero :
    ((after (.millisecondTick 2) rig).copy 0).queue.map Strip.state = [.fenced, .planned] ∧
      ((after (.millisecondTick 2) rig).port (.spindle 2)).latches = 0x0011#16 ∧
      ((after (.millisecondTick 2) rig).spindle 2).issued.map Held.status = [.complete] := by decide +kernel
theorem test_tick_counts_down_a_hold :
    ((after (.millisecondTick 2) (rig.setSpindle 2 { holder0 with holdRemaining := 2 })).spindle 2).holdRemaining = 1 ∧
      ((after (.millisecondTick 2) (rig.setSpindle 2 { holder0 with holdRemaining := 2 })).copy 0).queue =
        (rig.copy 0).queue := by decide +kernel
theorem test_lease_expiry_is_that_tick : after (.leaseExpiry 2) rig = after (.millisecondTick 2) rig ∧
    after (.leaseExpiry 1) rig = rig := by decide +kernel
theorem test_hold_end_not_due : after (.holdCountdownEnd 2) rig = rig := by decide +kernel

/-! ## Tiles -/

theorem test_open_first :
    answerOn (after (.openTile 1#8 0#8) (State.reset.setRelief (relief2 sealedTile Tile.fresh))) .scan =
      some (.ok, [1#8, 0#8, 0#8]) := by decide +kernel
theorem test_open_rescan_waits :
    ((after (.openTile 1#8 0#8) rig).port .scan).state = .working ∧
      answerOn (after (.openTile 0#8 0#8) rig) .scan = some (.dependent, []) := by decide +kernel
theorem test_preload_completes :
    answerOn (after .rescanPreloadCompletion (scanRig false true)) .scan = some (.ok, [0#8, 0#8, 1#8, 1#8]) := by
  decide +kernel
theorem test_put_samples :
    answerOn (after (.putSamples 0#8 0#8 1022#16 [5#16, 6#16]) (scanRig false false)) .scan = some (.ok, [0#8, 3#8]) ∧
      answerOn (after (.putSamples 0#8 0#8 1023#16 [5#16, 6#16]) (scanRig false false)) .scan = some (.badArg, []) := by
  decide +kernel
theorem test_view_staging :
    answerOn (after (.viewStaging 0#8 0#8 2#16 2#8) (scanRig false false)) .scan =
      some (.ok, [0#8, 0#8, 1#8, 0#8, 1#8, 0xFF#8, 0xFF#8, 0#8, 7#8]) := by decide +kernel
theorem test_seal_incomplete :
    answerOn (after (.sealTile 0#8 0#8 0#16) (scanRig false false)) .scan = some (.incomplete, [0#8, 1#8]) := by
  decide +kernel
theorem test_seal_completion : ∃ v : State,
    after .sealCompletion (scanRig true false) = v.handOn (allSix.map Chore.evaluate) ∧
      answerOn v .scan = some (.ok, [0#8, 0#8, 2#8]) ∧ (v.port .plan).latches = 0x0101#16 ∧
      v.relief.sample 3 0 = 7#16 ∧ v.relief.sample 0 0 = 0xFFFF#16 := by
  refine ⟨_, rfl, ?_, ?_, ?_, ?_⟩ <;> decide +kernel
theorem test_drop :
    answerOn (after (.dropTile 0#8 0#8) (scanRig false false)) .scan = some (.ok, []) ∧
      answerOn (after (.dropTile 1#8 0#8) (scanRig false false)) .scan = some (.notOpen, []) := by decide +kernel
theorem test_define_relief :
    answerOn (after (.defineRelief 512#16 384#16) State.reset) .plan = some (.ok, [0#8, 16#8, 0#8, 12#8]) ∧
      answerOn (after (.defineRelief 2080#16 32#16) State.reset) .plan = some (.badArg, []) := by decide +kernel
theorem test_read_relief :
    answerOn (after (.readRelief 0#16 0#16 2#8) rig) .plan = some (.ok, [0#8, 100#8, 0xFF#8, 0xFF#8]) := by
  decide +kernel

/-! ## Copies -/

/-- The DEFINE COPY of the manual's extent check, with W as given. -/
def defineArgs (w : Word) : CopyArgs where
  slot := 2#8
  ox := 100#16
  oy := 40#16
  w := w
  h := 500#16
  k := 1536#16
  z0 := 2500#16
  limit := 300000#24
  f0 := 0#24
  margin := 40#8
  tolerance := 20#16
  leaseTime := 50#16
  waitHold := 2000#16
  stopOnSpoil := 1#8

/-- The relief of the manual's examples. -/
def bigRelief : State := State.reset.setRelief (Relief.define 512 384)

theorem test_extent_check :
    (answerOn (after (.defineCopy (defineArgs 618#16)) bigRelief) .plan).map Prod.fst = some .clamped ∧
      (answerOn (after (.defineCopy (defineArgs 619#16)) bigRelief) .plan).map Prod.fst = some .extent := by
  decide +kernel
theorem test_tuning_values_clamped :
    (let c := (after (.defineCopy (defineArgs 600#16)) bigRelief).copy 2
     (c.state, c.mapping.sigma, c.mapping.limit, c.margin, c.leaseTime)) = (.clearing, 682, 262143, 31, 100) := by
  decide +kernel
theorem test_clear_completion :
    ((after (.clearCompletion 0) (rigIn .clearing [] Spindle.fresh)).copy 0).state = .ready ∧
      ((after (.clearCompletion 0) (rigIn .clearing [] Spindle.fresh)).port .plan).latches = 3#16 := by decide +kernel
theorem test_set_pass :
    answerOn (after (.setPass 0#8 1#8 800#16 5000#16) (rigIn .ready [] Spindle.fresh)) .plan =
      some (.clamped, [1#8, 3#8, 32#8, 0x0F#8, 0xFF#8]) ∧
    answerOn (after (.setPass 0#8 1#8 800#16 150#16) rig) .plan = some (.badState, []) := by decide +kernel
/-- The state before the last row of the table in 2.13: READY, the pass ROUGH, 600, 150. -/
def roughedRig : State :=
  (rigIn .ready [] Spindle.fresh).setCopy 0
    ((copy1 .ready []).setPass { kind := .rough, stepDown := 600, allowance := 150 })

/-- The last row of the table in 2.13, SET PASS FINISH, 600, 150; and a FINISH that carries 1 and 0 has them
written (R34) and keeps the p and a of roughing (R58). -/
theorem test_set_pass_finish :
    ((after (.setPass 0#8 0#8 600#16 150#16) roughedRig).copy 0).pass =
      { kind := .finish, stepDown := 600, allowance := 150 } ∧
    ((after (.setPass 0#8 0#8 1#16 0#16) roughedRig).copy 0).pass =
      { kind := .finish, stepDown := 1, allowance := 0 } ∧
    ((after (.setPass 0#8 0#8 1#16 0#16) roughedRig).copy 0).kept = { stepDown := 600, allowance := 150 } ∧
    answerOn (after (.setPass 0#8 0#8 1#16 0#16) roughedRig) .plan = some (.ok, [0#8, 0#8, 1#8, 0#8, 0#8]) := by
  decide +kernel
theorem test_start_pass :
    ((after (.startPass 0#8) (rigIn .ready [planned 0 0 0 1] Spindle.fresh)).copy 0).state = .cutting ∧
      answerOn (after (.startPass 0#8) (rigIn .ready [] Spindle.fresh)) .plan = some (.empty, []) := by decide +kernel
theorem test_pause : ((after (.pauseCopy 0#8) rig).copy 0).state = .paused := by decide +kernel
theorem test_resume_of_a_finished_pass :
    ((after (.resumeCopy 0#8) ((rigIn .paused [] Spindle.fresh).modifyCopy 0 fun c => { c with planClosed := true })).copy
      0).state = .ready := by decide +kernel
theorem test_close_refused_while_issued :
    answerOn (after (.closeCopy 0#8) rig) .plan = some (.held, []) := by decide +kernel
theorem test_close_discards_a_fenced_strip :
    ((after (.closeCopy 0#8) fencedRig).copy 0).state = .free ∧
      ((after (.closeCopy 0#8) fencedRig).relief.tile? ⟨0, 0⟩).map Tile.dependents = some 0 ∧
      ((after (.closeCopy 0#8) fencedRig).spindle 2).bound = none := by decide +kernel
theorem test_bind :
    ((after (.bindSpindle 6#8 0#8) rig).spindle 5).bound = some 0 ∧
      answerOn (after (.bindSpindle 3#8 0#8) rig) .plan = some (.badState, []) := by decide +kernel
theorem test_unbind_fences :
    ((after (.unbindSpindle 3#8) rig).spindle 2).bound = none ∧
      ((after (.unbindSpindle 3#8) rig).port (.spindle 2)).latches = 0x0011#16 := by decide +kernel
theorem test_read_floors :
    answerOn (after (.readFloors 0#8 0#16 0#16 2#8) (rig.modifyCopy 0 fun c => c.setFloor 1 0 300)) .plan =
      some (.ok, [0#8, 0#8, 0#8, 0#8, 1#8, 44#8]) := by decide +kernel
theorem test_read_copy_zeroes :
    ((after (.readCopy 0#8 1#8) (rig.modifyCopy 0 fun c => { c with counters := { Counters.zero with spoil := 3 } })).copy
      0).counters = Counters.zero := by decide +kernel
theorem test_read_free_copy :
    answerOn (after (.readCopy 5#8 0#8) rig) .plan = some (.ok, List.replicate 54 0#8) := by decide +kernel

/-! ## Targets: the manual's worked cases (3.10) -/

/-- The mapping of copy 1 there. -/
def mapping15 : Mapping := { ox := 100, oy := 40, sigma := 682, k := 1536, z0 := 2500, limit := 60000 }

theorem test_step_of_a_scale : stepOf 1536 = 682 ∧ stepOf 4096 = 256 ∧ stepOf 256 = 4096 := by decide
theorem test_position_at_1_5 : mapping15.x 7 = 107174 ∧ mapping15.y 2 = 42324 := by decide
theorem test_interpolation_at_1_5 :
    interpolate [(236664, 1200#16), (463752, 1300#16), (117640, 1180#16), (230520, 1420#16)] = 1290 ∧
      scaleDepth 1290 1536 + 2500 = 4435 := by decide
theorem test_pass_targets_at_1_5 :
    passTarget { kind := .rough, stepDown := 800, allowance := 150 } 4435 3200 = 4000 ∧
      passTarget { kind := .rough, stepDown := 800, allowance := 150 } 4435 4000 = 4285 ∧
      passGoal { kind := .rough, stepDown := 800, allowance := 150 } 4435 = 4285 ∧
      passTarget { kind := .finish, stepDown := 1, allowance := 0 } 4435 4285 = 4435 := by decide
theorem test_floor_limit_case : scaleDepth 65534 4096 = 262136 ∧ min 250000 (scaleDepth 65534 4096 + 40000) = 250000 := by
  decide
theorem test_missing_reading_holds :
    heldByNr [(524288, 2000#16), (524288, 0xFFFF#16), (0, 0#16), (0, 0#16)] = true ∧
      heldByNr [(1048576, 2000#16), (0, 0xFFFF#16), (0, 0#16), (0, 0#16)] = false := by decide

/-! ## Plans, issue, zones (4, 5.13) -/

/-- A descriptor of four cells with the END mark. -/
def descriptor (row : BitVec 14) (first : Word) : Descriptor :=
  { endMark := true, direction := .forward, row := row, first := first, lengthCode := 4#8 }

theorem test_load_plan_clips :
    answerOn (after (.loadPlan 0#8 [descriptor 39#14 38#16]) (rigIn .ready [] Spindle.fresh)) .plan =
      some (.ok, [0#8, 1#8, 0#8, 1#8, 0#8, 0#8, 0#8, 0#8, 0#8, 1#8, 1#8]) := by decide +kernel
theorem test_clear_plan :
    answerOn (after (.clearPlan 0#8) rig) .plan = some (.ok, [0#8, 1#8, 0#8, 1#8]) := by decide +kernel
theorem test_read_strip_unused :
    answerOn (after (.readStrip 0#8 0#8 7#16) rig) .plan =
      some (.ok, List.replicate 21 0#8 ++ [0#8, 2#8, 0#8] ++ [0#8, 1#8, 0#8, 1#8, 0#8, 0#8]) := by
  decide +kernel
theorem test_read_strip_issued :
    answerOn (after (.readStrip 0#8 1#8 0#16) rig) .plan =
      some (.ok, [2#8, 0#8, 0#8, 0#8, 0#8] ++ [0#8, 0#8, 0#8, 0#8, 0#8, 2#8, 0#8] ++ [3#8, 1#8, 0#8]
        ++ [0#8, 0#8, 0#8, 0#8] ++ [0#8, 1#8] ++ [0#8, 2#8, 0#8] ++ [0#8, 1#8, 0#8, 1#8, 0#8, 0#8]) := by
  decide +kernel
theorem test_take_strip_issues :
    answerOn (after (.takeStrip 2) rig) (.spindle 2) =
      some (.ok, [0#8, 0#8, 1#8, 1#8, 0#8, 20#8, 0#8, 0#8, 0#8, 1#8, 0#8]) ∧
    ((after (.takeStrip 2) rig).relief.tile? ⟨0, 0⟩).map Tile.dependents = some 2 := by decide +kernel
theorem test_take_strip_unbound : answerOn (after (.takeStrip 0) rig) (.spindle 0) = some (.unbound, []) := by
  decide +kernel
theorem test_footprint_at_1_5 :
    footprintOf (Relief.define 512 384) mapping15 2 0 256 = ⟨3, 1, 8, 1⟩ ∧
      footprintOf (Relief.define 512 384) mapping15 35 0 256 = ⟨3, 1, 8, 2⟩ ∧
      footprintOf (Relief.define 512 384) mapping15 50 0 256 = ⟨3, 2, 8, 2⟩ := by decide +kernel

/-- The copy of the manual's zone example. -/
def zoneCopy : Copy := { copy1 .cutting [] with w := 600, h := 500 }

theorem test_zones_with_margin_4 :
    (zoneOf zoneCopy (planned 0 10 0 256)).meets (zoneOf zoneCopy (planned 1 18 0 256)) = true ∧
      (zoneOf zoneCopy (planned 0 10 0 256)).meets (zoneOf zoneCopy (planned 1 19 0 256)) = false ∧
      (zoneOf zoneCopy (planned 0 10 0 256)).meets (zoneOf zoneCopy (planned 1 10 263 38)) = true ∧
      (zoneOf zoneCopy (planned 0 10 0 256)).meets (zoneOf zoneCopy (planned 1 10 264 37)) = false := by decide
theorem test_set_prefetch_clamps :
    (answerOn (after (.setPrefetch 0 300#16) State.reset) (.spindle 0)) = some (.clamped, [0#8, 255#8]) := by
  decide +kernel

/-! ## The engine, the queue, fences, holds -/

/-- The rig with strip 0 in computation at its first cell. -/
def computing (made : Nat) : State :=
  (rig.setSpindle 2 { holder0 with issued := [{ key := key 0, status := .computing }], queue := [] }).setEngine
    { pointer := 2
      inFlight := some { holder := 2, key := key 0, mapping := (rig.copy 0).mapping, pass := (rig.copy 0).pass,
                         nextColumn := made, made := made } }

/-- The strip that spindle 3 computes is FENCED; spindle 2 holds strip 1, AWAITING. -/
def abandonRig : State :=
  (((computing 0).setCopy 0
      (copy1 .cutting [heldBy 2 .fenced (planned 0 0 0 2), heldBy 1 .issued (planned 1 20 0 1)])).setSpindle 1
    { Spindle.fresh with issued := [⟨key 1, .awaiting⟩] })

theorem test_first_cell :
    (((after .computeCell (computing 0)).spindle 2).queue.map fun e => (e.column, e.target, e.clamped, e.first)) =
      [(0, 90, true, true)] ∧
    ((after .computeCell (computing 0)).port (.spindle 2)).latches = 3#16 := by decide +kernel
theorem test_last_cell_is_held : ∃ v : State, after .computeCell (computing 1) = v.handOn [.evaluate 2, .grant] ∧
    ((v.spindle 2).queue.map fun e => (e.column, e.target, e.held, e.last)) = [(1, 0, true, true)] ∧
    v.engine.inFlight = none := by
  refine ⟨_, rfl, ?_, ?_⟩ <;> decide +kernel
theorem test_draw_restarts_the_lease :
    ((after (.drawTargets 2 1#8) rig).spindle 2).readPos = 1 ∧
      (((after (.drawTargets 2 1#8) rig).copy 0).queue.map fun t => t.lease.map Lease.remaining) = [some 1000, none] := by
  decide +kernel
theorem test_draw_stops_before_a_fenced_strip :
    answerOn (after (.drawTargets 2 32#8) fencedRig) (.spindle 2) = some (.late, [0#8, 0#8, 2#8]) := by decide +kernel
theorem test_rewind :
    answerOn (after (.rewindStrip 2) (rig.setSpindle 2 { holder0 with readPos := 2 })) (.spindle 2) =
      some (.ok, [0#8, 0#8, 0#8, 1#8, 0#8, 2#8]) := by decide +kernel
theorem test_renew :
    answerOn (after (.renew 2) rig) (.spindle 2) = some (.ok, [1#8]) ∧
      answerOn (after (.renew 2) fencedRig) (.spindle 2) = some (.ok, [0#8]) := by decide +kernel
theorem test_requeue :
    answerOn (after (.releaseFence 0#8 0#16 0#8) fencedRig) .plan =
      some (.ok, [0#8, 0#8, 0#8, 1#8, 0#8, 0#8, 2#8, 2#8]) ∧
    ((after (.releaseFence 0#8 0#16 0#8) fencedRig).copy 0).queue.map Strip.index = [1, 0] := by decide +kernel
theorem test_discard :
    ((after (.releaseFence 0#8 0#16 1#8) fencedRig).copy 0).queue.map Strip.index = [1] ∧
      ((after (.releaseFence 0#8 0#16 1#8) fencedRig).spindle 2).departed.map Departed.key = [key 0] := by decide +kernel
theorem test_release_abandons_and_grants :
    (after (.releaseFence 0#8 0#16 0#8) abandonRig).engine.inFlight.map (fun c => (c.holder, c.key)) =
      some (1, key 1) := by decide +kernel
theorem test_hold_spindle :
    answerOn (after (.holdSpindle 3#8 300#16) rig) .plan = some (.ok, [1#8, 44#8, 0#8]) ∧
      ((after (.holdSpindle 3#8 300#16) rig).port (.spindle 2)).latches = 5#16 := by decide +kernel

/-! ## Reports: the first worked example of 8.9, cell by cell -/

theorem test_overcut_and_shortfall :
    isShortfall (entry 0 6 4272) 20 4240 = true ∧ isShortfall (entry 0 5 4260) 20 4262 = false ∧
      isOvercut (entry 0 7 4285) 20 4330 = true ∧ isOvercut (entry 0 5 4260) 20 4262 = false := by decide
theorem test_spoil_of_the_worked_example :
    isSpoil (some (4450, false)) 20 4000 4480 = true ∧ isSpoil (some (4435, false)) 20 4000 4330 = false ∧
      isSpoil (some (4450, false)) 20 4480 4480 = false := by decide
theorem test_report_starts_a_merge :
    ((after (.reportCut 2 0#8 0#16 1#8 [90#24, 90#24]) rig).spindle 2).merge.map (fun m => (m.kind, m.checked)) =
      some (.heldIssued, true) ∧
    ((after (.reportCut 2 0#8 0#16 1#8 [90#24, 90#24]) rig).port (.spindle 2)).state = .working := by decide +kernel
theorem test_report_not_held :
    answerOn (after (.reportCut 2 0#8 0#16 2#8 [90#24, 90#24]) rig) (.spindle 2) = some (.notHeld, []) := by
  decide +kernel

/-- The rig with the last cell of strip 0's merge to come; tile (0, 0) sealed through with 100 in two cells. -/
def mergeRig : State :=
  onPort ((rig.setSpindle 2 { holder0 with merge := some merge1 }).setRelief
    (relief2 { sealedTile with dependents := 1, current := [(0, 100#16), (1, 100#16)] } sealedTile)) (.spindle 2) .working

theorem test_last_cell_completes_the_merge :
    (answerOn (after (.mergeCell 2) mergeRig) (.spindle 2)) =
      some (.ok, [0#8, 0#8, 0#8, 1#8, 1#8, 0#8, 2#8, 0#8, 2#8, 0#8, 0#8, 0#8, 1#8, 0#8, 0#8, 0#8, 1#8, 1#8, 1#8]) ∧
    ((after (.mergeCell 2) mergeRig).copy 0).state = .paused ∧
    ((after (.mergeCell 2) mergeRig).port .plan).latches = 0x0061#16 := by decide +kernel
theorem test_merge_deepens : ((after (.mergeCell 2) mergeRig).copy 0).floor 1 0 = 300 := by decide +kernel

/-! ## Mailboxes -/

theorem test_post_and_read_order :
    answerOn (after (.readOrder 2) (after (.postOrder 3#8 0x0102030405060708#64) rig)) (.spindle 2) =
      some (.ok, [1#8, 1#8, 2#8, 3#8, 4#8, 5#8, 6#8, 7#8, 8#8]) := by decide +kernel
theorem test_post_to_a_full_box :
    answerOn (after (.postNote 2 9#64) (after (.postNote 2 7#64) rig)) (.spindle 2) = some (.full, []) := by
  decide +kernel
theorem test_read_note_keeps_the_content :
    ((after (.readNote 3#8) (after (.postNote 2 7#64) rig)).spindle 2).note = { content := 7#64, full := false } := by
  decide +kernel

/-! ## For each statement with hypotheses, a state and operands that meet them -/

theorem witness_QueueUntouched : exec .computeCell { rig with pending := [.warmReset] } =
    .next { rig with pending := [.warmReset] } := rfl
theorem witness_FrameRoundTrip :
    (Instr.loadPlan 5#8 [descriptor 0x3FFF#14 0xFFFF#16]).wellFormed = true ∧
      (encodeFrame (.loadPlan 5#8 [descriptor 0x3FFF#14 0xFFFF#16])).isSome = true ∧
      (Instr.putSamples 1#8 2#8 3#16 []).wellFormed = true := by decide +kernel
theorem witness_StatusPollAndByte :
    (rig.port .plan).frame = .none ∧
      ((after (.statusPoll (.spindle 2) .begun) rig).port (.spindle 2)).frame = .open 0x28#8 := by decide +kernel
theorem witness_FetchDelivers :
    (3 ≤ 3 ∧ 3 + 5 ≤ 8 ∧ ¬ 3 + 5 ≤ 7) ∧ (after (.readCopy 9#8 0#8) rig).frameCounts .plan = true ∧
      (after (.resetPin 25) rig).frameCounts .plan = false ∧
      ((after (.readCopy 9#8 0#8) rig).port .plan).state = .answered := by decide +kernel
theorem witness_RefusedWhileWorking :
    ordinaryRequest (.takeStrip 2) = true ∧ mergeRig.frameCounts (requestPort (.takeStrip 2)) = true ∧
      ((onPort rig (.spindle 2) .working).fallStatus (requestPort (.takeStrip 2))).extractLsb' 6 2 = 1#2 ∧
      (mergeRig.fallStatus (requestPort (.badFrame (.spindle 2) .code))).extractLsb' 6 2 = 1#2 := by decide +kernel
theorem witness_PortsIndependent :
    ordinaryRequest (.pauseCopy 0#8) = true ∧ (commandCode (.portReset (.spindle 2))).isSome = true ∧
      Instr.portReset (.spindle 2) ≠ .warmReset ∧ PortId.plan ≠ requestPort (.portReset (.spindle 2)) ∧
      exec (.portReset (.spindle 2)) rig = .next (after (.portReset (.spindle 2)) rig) ∧
      (∃ p ph, Instr.statusPoll .scan .begun = .statusPoll p ph) ∧
      PortId.plan ≠ requestPort (.statusPoll .scan .begun) ∧
      exec (.statusPoll .scan .begun) rig = .next (after (.statusPoll .scan .begun) rig) :=
  ⟨rfl, rfl, by decide, by decide, rfl, ⟨_, _, rfl⟩, by decide, rfl⟩
theorem witness_PlanAndScanPortReset :
    (after (.resetPin 25) rig).frameCounts .scan = false ∧ (scanRig true false).frameCounts .scan = true ∧
      ((scanRig true false).setRelief { (scanRig true false).relief with wanted := some ⟨0, 0⟩ }).relief.wanted =
        some ⟨0, 0⟩ ∧
      ((scanRig true false).findSlot ⟨0, 0⟩).isSome = true ∧ (scanRig true false).findSlot ⟨1, 0⟩ = none ∧
      (scanRig true false).relief.wanted = none := by decide +kernel
theorem witness_SpindlePortReset_WarmReset :
    (after (.resetPin 25) rig).frameCounts (.spindle 2) = false ∧ rig.frameCounts (.spindle 2) = true ∧
      rig.frameCounts .plan = true ∧ (after (.resetPin 25) rig).frameCounts .plan = false ∧
      ((rigIn .clearing [] Spindle.fresh).copy 0).state = .clearing ∧ (rig.copy 0).state ≠ .clearing ∧
      rig.issuedStrips 2 ≠ [] ∧ fencedRig.issuedStrips 2 = [] := by decide +kernel
theorem witness_TickEffects :
    0 < ((rig.setSpindle 2 { holder0 with holdRemaining := 1 }).spindle 2).holdRemaining ∧
      ((rig.setSpindle 2 { holder0 with holdRemaining := 2 }).spindle 2).holdRemaining ≠ 1 ∧
      (rig.spindle 2).holdRemaining = 0 ∧ (rig.issuedStrips 2).filter rig.expiring ≠ [] ∧
      (fencedRig.issuedStrips 2).filter fencedRig.expiring = [] := by decide +kernel
/-- A lease at 2 ms, and one at 1 ms that is STOPPED, do not expire at a tick; one that runs at 1 ms does (R121, R125). -/
theorem witness_TickEffects_leases :
    rig.expiring ⟨key 0, .complete⟩ = true ∧
      (rigIn .cutting [{ heldBy 2 .issued (planned 0 0 0 2) with lease := some ⟨2, true⟩ }] holder0).expiring
        ⟨key 0, .complete⟩ = false ∧
      (rigIn .cutting [{ heldBy 2 .issued (planned 0 0 0 2) with lease := some ⟨1, false⟩ }] holder0).expiring
        ⟨key 0, .complete⟩ = false := by decide +kernel
theorem witness_OpenTileAndPreload :
    State.reset.preloadingSlot = none ∧
      (scanRig false true).preloadingSlot = some (1, slot00 .rescan false true) ∧
      ((scanRig false true).relief.tile? (slot00 .rescan false true).key).isSome = true := by decide +kernel
/-- The free slot with none, slot 1, and every slot in use (R7, R8). -/
theorem witness_OpenTileAndPreload_slots :
    State.reset.freeSlot = some 0 ∧ (scanRig false true).freeSlot = some 0 ∧
      ((scanRig false true).setStaging 0 (some (slot00 .first false false))).freeSlot = some 2 ∧
      { State.reset with staging := Four.fill (some (slot00 .first false false)) }.freeSlot = none := by decide +kernel
theorem witness_StagingWriteAndView :
    (scanRig false false).findSlot ⟨0, 0⟩ = some (1, slot00 .rescan false false) ∧
      (scanRig false false).findSlot ⟨1, 0⟩ = none := by decide +kernel
theorem witness_SealCompletionEffects :
    State.reset.sealingSlot = none ∧ (scanRig true false).sealingSlot = some (1, slot00 .rescan true false) ∧
      ((scanRig true false).relief.tile? (slot00 .rescan true false).key).isSome = true ∧
      Cells.wf (slot00 .rescan true false).samples ∧ (⟨1, 0⟩ : TileKey) ≠ (slot00 .rescan true false).key := by
  decide +kernel
theorem witness_ReliefDefineAndRead :
    (rig.copy 0).state ≠ .free ∧ (scanRig true false).staging.get 1 ≠ none ∧
      (∀ k, (State.reset.copy k).state = .free) ∧ (∀ i, State.reset.staging.get i = none) ∧
      (32 ≤ (32#16).toNat ∧ (32#16).toNat ≤ 2048 ∧ (32#16).toNat % 32 = 0) ∧
      (32 ≤ (2048#16).toNat ∧ (2048#16).toNat ≤ 2048 ∧ (2048#16).toNat % 32 = 0) ∧
      ¬ (32 ≤ (31#16).toNat ∧ (31#16).toNat ≤ 2048 ∧ (31#16).toNat % 32 = 0) ∧
      ¬ (32 ≤ (2080#16).toNat ∧ (2080#16).toNat ≤ 2048 ∧ (2080#16).toNat % 32 = 0) := by decide +kernel
theorem witness_SetPassEffects :
    rig.withdrawable 0 (heldBy 2 .issued (planned 0 0 0 2)) = true ∧
      heldBy 2 .issued (planned 0 0 0 2) ∈ (rig.copy 0).queue ∧
      (heldBy 2 .issued (planned 0 0 0 2)).holder = some 2 ∧
      (∀ t ∈ (fencedRig.copy 0).queue, fencedRig.withdrawable 0 t = false) ∧
      (∀ t ∈ ((rig.setSpindle 2 { holder0 with readPos := 1 }).copy 0).queue,
        (rig.setSpindle 2 { holder0 with readPos := 1 }).withdrawable 0 t = false) := by decide +kernel
theorem witness_CloseCopyEffects :
    slotOf 6#8 = none ∧ slotOf 5#8 = some 5 ∧ slotOf 0#8 = some 0 ∧ (State.reset.copy 5).state = .free ∧
      (rig.copy 0).state ≠ .free ∧ (∃ t ∈ (rig.copy 0).queue, t.state = .issued) ∧
      ((fencedRig.setSpindle 2 { holder0 with merge := some merge1 }).spindle 2).merge = some merge1 ∧
      merge1.key.copy = 0 ∧ (fencedRig.copy 0).state ≠ .free ∧
      (∀ t ∈ (fencedRig.copy 0).queue, t.state ≠ .issued) ∧ (∀ n, (fencedRig.spindle n).merge = none) := by
  decide +kernel
theorem witness_BindAndUnbind : spindleOf 0#8 = none ∧ spindleOf 7#8 = none ∧ spindleOf 1#8 = some 0 ∧
    spindleOf 6#8 = some 5 ∧ rig.issuedStrips 2 ≠ [] ∧ rig.issuedStrips 5 = [] := by decide +kernel
theorem witness_CopyStateMoves :
    exec (.pauseCopy 0#8) rig = .next (after (.pauseCopy 0#8) rig) ∧
      ((after (.pauseCopy 0#8) rig).copy 0).state ≠ (rig.copy 0).state := ⟨rfl, by decide +kernel⟩
theorem witness_FloorsNeverRise :
    step { mergeRig with pending := [.mergeCell 2] } = .next (after (.mergeCell 2) mergeRig) ∧
      ((after (.mergeCell 2) mergeRig).copy 0).state ≠ .free ∧
      ((after (.mergeCell 2) mergeRig).copy 0).state ≠ .clearing := ⟨rfl, by decide +kernel, by decide +kernel⟩
theorem witness_TargetBound :
    (cellTarget rig.relief (rig.copy 0).mapping (rig.copy 0).pass 1 0 7).held = true ∧
      (cellTarget rig.relief (rig.copy 0).mapping (rig.copy 0).pass 0 0 90).nothing = true ∧
      (cellTarget rig.relief (rig.copy 0).mapping (rig.copy 0).pass 0 0 89).held = false ∧
      (cellTarget rig.relief (rig.copy 0).mapping (rig.copy 0).pass 0 0 89).nothing = false ∧
      finalTarget rig.relief (rig.copy 0).mapping 0 0 = some (90, true) ∧
      finalTarget rig.relief { (rig.copy 0).mapping with limit := 100 } 0 0 = some (100, false) ∧
      (rig.copy 0).pass.kind = .finish ∧
      (cellTarget rig.relief (rig.copy 0).mapping { kind := .rough, stepDown := 1, allowance := 1 } 0 0 88).nothing =
        false ∧ (rig.copy 0).mapping.limit ≤ 262143 := by decide +kernel
theorem witness_ScaledDepth : (65534 ≤ 65534 ∧ 4096 ≤ 4096) ∧ scaleDepth 65534 4096 = 262136 := by decide
theorem witness_InterpolationBounds :
    (rig.copy 0).mapping.x 63 ≤ (rig.relief.mw - 1) * 1024 ∧ (rig.copy 0).mapping.x 63 / 1024 + 1 = rig.relief.mw ∧
      (rig.copy 0).mapping.y 63 ≤ (rig.relief.mh - 1) * 1024 ∧ (rig.copy 0).mapping.y 63 / 1024 + 1 = rig.relief.mh ∧
      heldByNr (weightedSamples rig.relief (rig.copy 0).mapping 0 0) = false ∧
      (∀ e ∈ weightedSamples rig.relief (rig.copy 0).mapping 0 0, 0 < e.1 → 100 ≤ e.2.toNat ∧ e.2.toNat ≤ 100) := by
  decide +kernel
theorem witness_LoadPlanEffects :
    (rig.copy 0).h ≤ (descriptor 40#14 0#16).row.toNat ∧ (rig.copy 0).w ≤ (descriptor 0#14 40#16).first.toNat ∧
      (descriptor 39#14 39#16).row.toNat < (rig.copy 0).h ∧ (descriptor 39#14 39#16).first.toNat < (rig.copy 0).w ∧
      (rig.copy 0).queue.length < 4096 := by decide +kernel
theorem witness_LoadPlanEffects_full :
    4096 ≤ (copy1 .ready (List.replicate 4096 (planned 0 0 0 1))).queue.length ∧
      (descriptor 39#14 39#16).row.toNat < (copy1 .ready (List.replicate 4096 (planned 0 0 0 1))).h := by
  exact ⟨Nat.le_of_eq List.length_replicate.symm, by decide⟩
theorem witness_IssueEffects :
    rig.search 2 0 = some (planned 1 20 0 1) ∧ rig.search 4 0 = some (planned 1 20 0 1) ∧
      (rigIn .cutting [heldBy 2 .issued (planned 0 0 0 2), planned 1 8 0 1] holder0).search 4 0 = none ∧
      planned 1 8 0 1 ∈ ((rigIn .cutting [heldBy 2 .issued (planned 0 0 0 2), planned 1 8 0 1] holder0).copy 0).queue := by
  decide +kernel

/-- Tile (1, 0) is ABSENT; the PLANNED strip 1 lies on tiles (0, 0) and (1, 0). -/
def absentRig : State :=
  (rigIn .cutting [heldBy 2 .issued (planned 0 0 0 2), planned 1 20 30 4] holder0).setRelief
    (relief2 { sealedTile with dependents := 1 } { sealedTile with state := .absent })

theorem witness_IssueEffects_tiles :
    absentRig.tileFailure 2 0 = some (planned 1 20 30 4) ∧
      absentRig.missingTile 0 (planned 1 20 30 4) = some ⟨1, 0⟩ ∧
      (absentRig.footprintOf 0 (planned 1 20 30 4)).covers 0 0 = true ∧
      rig.tileFailure 2 0 = none ∧ planned 1 20 0 1 ∈ (rig.copy 0).queue ∧
      rig.missingTile 0 (planned 1 20 0 1) = none ∧ (rig.footprintOf 0 (planned 1 20 0 1)).covers 0 0 = true := by
  decide +kernel
theorem witness_LeaveEffects :
    (heldBy 2 .fenced (planned 0 0 0 2)).holder = some 2 ∧
      (heldBy 2 .fenced (planned 0 0 0 2)).footprint = some ⟨0, 0, 0, 0⟩ := by decide
theorem witness_FootprintCovers :
    (1 ≤ 256 ∧ 256 ≤ 256 ∧ mapping15.sigma ≤ 4096 ∧ 1 ≤ bigRelief.relief.mw ∧ 1 ≤ bigRelief.relief.mh ∧
      mapping15.x (0 + 256 - 1) ≤ (bigRelief.relief.mw - 1) * 1024 ∧
      mapping15.y 2 ≤ (bigRelief.relief.mh - 1) * 1024) ∧
    (copy1 .cutting []).mapping.x (511 + 1 - 1) ≤ (bigRelief.relief.mw - 1) * 1024 := by decide +kernel
theorem witness_ZonesMeet :
    (planned 0 10 0 256).row < zoneCopy.h ∧ (planned 1 499 599 1).row < zoneCopy.h ∧ 1 ≤ (planned 0 10 0 256).length ∧
      1 ≤ (planned 1 499 599 1).length ∧ (planned 0 10 0 256).first + (planned 0 10 0 256).length ≤ zoneCopy.w ∧
      (planned 1 499 599 1).first + (planned 1 499 599 1).length ≤ zoneCopy.w := by decide

/-- Spindles 2 and 3 each hold an AWAITING strip; the engine is free, its pointer at spindle 2; spindle 3 has an unread
entry and spindle 2 as given. -/
def grantRig (queue : List Entry) : State :=
  ((rigIn .cutting [heldBy 2 .issued (planned 0 0 0 2), heldBy 1 .issued (planned 1 20 0 1)]
      { Spindle.fresh with bound := some 0, issued := [⟨key 0, .awaiting⟩], queue := [entry 0 0 9] }).setSpindle 1
    { Spindle.fresh with bound := some 0, issued := [⟨key 1, .awaiting⟩], queue := queue }).setEngine
      { pointer := 1, inFlight := none }

theorem witness_GrantChoice :
    (computing 0).engine.inFlight ≠ none ∧ (∀ n, ∀ h ∈ (rig.spindle n).issued, h.status ≠ .awaiting) ∧
      (grantRig []).engine.inFlight = none ∧ (∃ h ∈ ((grantRig []).spindle 1).issued, h.status = .awaiting) ∧
      (∀ j, ∀ h ∈ ((grantRig []).spindle j).issued, (grantRig []).strip? h.key ≠ none) := by decide +kernel
theorem test_a_starving_spindle_goes_first : (grantRig []).grantee = some 1 ∧ (grantRig [entry 1 0 9]).grantee = some 2 := by
  decide +kernel
theorem witness_HandOnKeeps : Chore.report 2 ∉ [Chore.evaluate 2, .grant] ∧
    WorkDone rig [.grant] rig.grantTest := ⟨by decide, .piece rig _ [] .grant [] (.finished _)⟩

/-- Spindle 3 with a prefetch threshold. -/
def thresholdRig (x : Nat) : State := rig.setSpindle 2 { holder0 with threshold := x }

theorem witness_HandOnKeeps_pieces :
    (((thresholdRig 2).spindle 2).issued = [{ key := key 0, status := .complete }] ∧
      ((thresholdRig 2).strip? (key 0)).map Strip.state = some .issued ∧
      ((thresholdRig 2).spindle 2).queue.length - ((thresholdRig 2).spindle 2).readPos = 2 ∧
      ((thresholdRig 2).spindle 2).threshold = 2 ∧ ((thresholdRig 2).spindle 2).holdRemaining = 0 ∧
      ((thresholdRig 2).spindle 2).bound = some 0 ∧ ((thresholdRig 2).copy 0).state = .cutting ∧
      (thresholdRig 2).search 2 0 = some (planned 1 20 0 1)) ∧
    ((thresholdRig 1).spindle 2).threshold = 1 ∧ (rig.spindle 2).waiting = none ∧ (rig.spindle 2).merge = none ∧
    ((rig.setSpindle 2 { holder0 with waiting := some ⟨0#8, 0#16, 1#8, [5#24, 6#24]⟩ }).spindle 2).waiting =
      some ⟨0#8, 0#16, 1#8, [5#24, 6#24]⟩ := by decide +kernel
theorem test_prefetch_at_the_threshold :
    ((thresholdRig 2).autoPrefetch 2).spindle 2 = { (thresholdRig 2).spindle 2 with
      issued := [{ key := key 0, status := .complete }, { key := key 1, status := .awaiting }] } ∧
    (thresholdRig 2).setsOff (.evaluate 2) = [.grant] ∧
    (((thresholdRig 2).handOn [.evaluate 2]).spindle 2).issued.map Held.status = [.complete, .computing] ∧
    (thresholdRig 1).autoPrefetch 2 = thresholdRig 1 ∧ (thresholdRig 1).setsOff (.evaluate 2) = [] := by
  decide +kernel

/-- Spindles 3 and 5 can each prefetch a strip of copy 0, at rows 10 and 20; the engine is free, its pointer at 6. -/
def twoRig : State :=
  (rigIn .cutting [heldBy 2 .issued (planned 0 0 0 2), heldBy 4 .issued (planned 2 30 0 2), planned 1 10 0 1,
      planned 3 20 0 1] { holder0 with threshold := 2 }).setSpindle 4
    { holder0 with issued := [{ key := key 2, status := .complete }], queue := [entry 2 0 90], threshold := 2 }

/-- Spindle 5 is evaluated first. The grant its issue sets off may come after the evaluation of spindle 3, and then finds
both strips and goes to spindle 3, or before it, and then goes to spindle 5 (R99, R105, R106). -/
theorem test_grant_after_or_before_another_issue :
    (workThrough 4 1 twoRig [.evaluate 2, .evaluate 4]).engine.inFlight.map Computation.holder = some 2 ∧
      (workThrough 4 3 twoRig [.evaluate 2, .evaluate 4]).engine.inFlight.map Computation.holder = some 4 := by
  decide +kernel
theorem witness_ComputeCellEffects :
    rig.engine.inFlight = none ∧ (computing 0).engine.inFlight ≠ none ∧ (computing 1).engine.inFlight ≠ none ∧
      (computing 0).strip? (key 0) = some (heldBy 2 .issued (planned 0 0 0 2)) := by decide +kernel
theorem witness_DrawTargetsEffects :
    ((1#8 : Byte).toNat = 1 ∧ (32#8 : Byte).toNat = 32) ∧ rig.drawn 2 1 = [entry 0 0 90] ∧
      fencedRig.drawn 2 32 = [] ∧ fencedRig.entryFenced (entry 0 0 90) = true ∧
      rig.entryFenced (entry 0 0 90) = false := by decide +kernel
theorem witness_MergeCellEffects :
    (rig.spindle 2).merge = none ∧ (mergeRig.spindle 2).merge = some merge1 ∧
      merge1.floors[merge1.done]? = some 300 ∧ (2047 < 2048) := by decide +kernel
theorem witness_MergesCommute :
    (2 : SpindleId) ≠ 4 ∧ merge1.key.copy = { merge1 with key := key 7 }.key.copy ∧
      merge1.geometry.row = { merge1 with key := key 7 }.geometry.row ∧
      merge1.geometry.column merge1.done = { merge1 with key := key 7 }.geometry.column 1 := by decide

/-! ## The invariants hold in small states that hold strips and slots -/

/-- The premise of an invariant's statement, met: the invariant and a step. -/
theorem witness_LinesFollowCondition : LinesAgree rig ∧
    step { rig with pending := [.pauseCopy 0#8] } = .next (after (.pauseCopy 0#8) rig) := by
  refine ⟨fun p => ?_, rfl⟩
  rcases p with _ | _ | n
  · decide +kernel
  · decide +kernel
  · revert n; decide +kernel

theorem witness_DependentsStayExact : DependentsExact rig := by
  refine ⟨by unfold Copy.tidy; decide +kernel, fun i t h => ?_⟩
  match i, h with
  | 0, h => cases h; decide +kernel
  | 1, h => cases h; decide +kernel
  | 2, h => cases h; decide +kernel
  | 3, h => cases h; decide +kernel
  | i + 4, h => exact absurd h (by simp [rig, rigIn, relief2])

theorem witness_CoveredTilesStaySealed : CoveredSealed rig := by unfold CoveredSealed; decide +kernel

/-- A held strip's footprint covers a tile of a relief that meets both invariants. -/
theorem witness_HeldTilesSealed : DependentsExact rig ∧ CoveredSealed rig ∧
    heldBy 2 .issued (planned 0 0 0 2) ∈ (rig.copy 0).queue ∧ (⟨0, 0, 0, 0⟩ : Footprint).covers 0 0 = true ∧
    (rig.relief.tile? ⟨0, 0⟩).isSome = true :=
  ⟨witness_DependentsStayExact, witness_CoveredTilesStaySealed, by decide +kernel, by decide, by decide +kernel⟩

theorem witness_TileStatesFollowSlots : SlotsAgree (scanRig true false) := by
  have others : ∀ i, i ≠ 1 → (scanRig true false).staging.get i = none := by decide +kernel
  have one : (scanRig true false).staging.get 1 = some (slot00 .rescan true false) := rfl
  have only : ∀ i x, (scanRig true false).staging.get i = some x → i = 1 ∧ x = slot00 .rescan true false := by
    intro i x h
    by_cases hi : i = 1
    · subst hi; rw [one] at h; exact ⟨rfl, (Option.some.inj h).symm⟩
    · rw [others i hi] at h; cases h
  refine ⟨fun i j x y hi hj _ => (only i x hi).1.trans (only j y hj).1.symm, fun i x h => ?_, fun k t h ht => ?_⟩
  · obtain ⟨-, rfl⟩ := only i x h
    exact ⟨_, rfl, rfl⟩
  · obtain ⟨tx, ty⟩ := k
    unfold Relief.tile? at h
    split at h
    · rename_i hb
      have h1 : tx < 2 := hb.1
      have h2 : ty < 2 := hb.2
      interval_cases tx <;> interval_cases ty
      · exact ⟨1, _, one, rfl⟩
      all_goals
        cases h
        exact absurd ht (by decide)
    · cases h

theorem witness_ZonesStayApart : ZonesApart (grantRig []) := by
  unfold ZonesApart Copy.zonesApart; decide +kernel

theorem witness_BoundsKept : BoundsHold rig := by
  unfold BoundsHold ListsBounded CountsBounded HoldsLegal; decide +kernel

theorem witness_StoresStayCanonical : StoresCanonical (scanRig true false) := by
  refine ⟨by decide +kernel, fun i x h => ?_, by decide +kernel⟩
  by_cases hi : i = 1
  · subst hi
    cases h
    decide
  · have := (by decide +kernel : ∀ i, i ≠ 1 → (scanRig true false).staging.get i = none) i hi
    rw [this] at h
    cases h

/-- The invariants of the other statements together with a step that does something. -/
theorem witness_invariants_and_a_step :
    (DependentsExact { rig with pending := [.takeStrip 2] } ∧ CoveredSealed { rig with pending := [.takeStrip 2] } ∧
      BoundsHold { rig with pending := [.takeStrip 2] } ∧
      step { rig with pending := [.takeStrip 2] } = .next (after (.takeStrip 2) rig)) ∧
    (ZonesApart { grantRig [] with pending := [.warmReset] } ∧
      step { grantRig [] with pending := [.warmReset] } = .next (after .warmReset (grantRig []))) ∧
    (SlotsAgree { scanRig true false with pending := [.dropTile 0#8 0#8] } ∧
      StoresCanonical { scanRig true false with pending := [.dropTile 0#8 0#8] } ∧
      step { scanRig true false with pending := [.dropTile 0#8 0#8] } =
        .next (after (.dropTile 0#8 0#8) (scanRig true false))) :=
  ⟨⟨witness_DependentsStayExact, witness_CoveredTilesStaySealed, witness_BoundsKept, rfl⟩,
    ⟨witness_ZonesStayApart, rfl⟩, ⟨witness_TileStatesFollowSlots, witness_StoresStayCanonical, rfl⟩⟩

end Sys2Proof.Tests
end

namespace Sys2Proof.Machine

/-! ## The tile table read by key and by place -/

/-- The state of the tile of a key (R3); none outside the grid. -/
def Relief.stateAt (r : Relief) (key : TileKey) : Option TileState := (r.tile? key).map Tile.state

/-- The dependents count at a place of the tile table (R6). -/
def Relief.dependentsAt (r : Relief) (i : Nat) : Option Nat := r.tiles[i]?.map Tile.dependents

theorem Relief.stateAt_of_tile? {r : Relief} {key : TileKey} {t : Tile} (h : r.tile? key = some t) :
    r.stateAt key = some t.state := by
  rw [stateAt, h, Option.map_some]

/-- A tile found stands at its place, whose column and row are those of its key. -/
theorem Relief.tile?_some {r : Relief} {key : TileKey} {t : Tile} (h : r.tile? key = some t) :
    r.tiles[r.tileIndex key]? = some t ∧ r.tileIndex key % r.tw = key.tx ∧ r.tileIndex key / r.tw = key.ty := by
  unfold tile? at h
  split at h
  · next hb =>
    refine ⟨h, ?_, ?_⟩
    · rw [tileIndex, Nat.mul_add_mod_self_right, Nat.mod_eq_of_lt hb.1]
    · rw [tileIndex, Nat.mul_comm, Nat.mul_add_div (by omega), Nat.div_eq_of_lt hb.1, Nat.add_zero]
  · cases h

/-- Two keys of the grid with one place are one key. -/
theorem Relief.tileIndex_inj {r : Relief} {a b : TileKey} (ha : a.tx < r.tw) (hb : b.tx < r.tw)
    (h : r.tileIndex a = r.tileIndex b) : a = b := by
  have hx := congrArg (· % r.tw) h
  have hy := congrArg (· / r.tw) h
  have hw : 0 < r.tw := by omega
  simp only [tileIndex, Nat.mul_comm _ r.tw, Nat.mul_add_mod, Nat.mul_add_div hw, Nat.mod_eq_of_lt, ha, hb,
    Nat.div_eq_of_lt, Nat.add_zero] at hx hy
  cases a
  cases b
  simp_all

/-- The tile of a key lies in the same place of reliefs of one size with the same tiles. -/
theorem Relief.tile?_congr {r r' : Relief} (hw : r'.mw = r.mw) (hh : r'.mh = r.mh) (ht : r'.tiles = r.tiles)
    (key : TileKey) : r'.tile? key = r.tile? key := by
  cases r
  cases r'
  cases hw
  cases hh
  cases ht
  rfl

/-- A key finds its place in another table of tiles as it did in the relief's own. -/
theorem Relief.tile?_withTiles (r : Relief) (l : List Tile) (key : TileKey) :
    Relief.tile? { r with tiles := l } key = if key.tx < r.tw ∧ key.ty < r.th then l[r.tileIndex key]? else none :=
  rfl

theorem Relief.modifyTile_mw (r : Relief) (key : TileKey) (f : Tile → Tile) : (r.modifyTile key f).mw = r.mw := by
  unfold modifyTile; split <;> rfl

theorem Relief.modifyTile_mh (r : Relief) (key : TileKey) (f : Tile → Tile) : (r.modifyTile key f).mh = r.mh := by
  unfold modifyTile; split <;> rfl

theorem Relief.modifyTile_tw (r : Relief) (key : TileKey) (f : Tile → Tile) : (r.modifyTile key f).tw = r.tw := by
  rw [tw, tw, modifyTile_mw]

/-- A tile changed: the tile of the key, and no other. -/
theorem Relief.tile?_modifyTile (r : Relief) (key k : TileKey) (f : Tile → Tile) :
    (r.modifyTile key f).tile? k = if k = key then (r.tile? key).map f else r.tile? k := by
  unfold modifyTile
  split
  · next hk =>
    rw [tile?_withTiles, List.getElem?_modify, tile?, tile?, if_pos hk]
    by_cases he : k = key
    · subst he
      simp [hk]
    · rw [if_neg he]
      split
      · next hb =>
        have hi : r.tileIndex key ≠ r.tileIndex k := fun h => he (tileIndex_inj hb.1 hk.1 h.symm)
        simp [hi]
      · rfl
  · next hk =>
    by_cases he : k = key
    · subst he
      simp [tile?, hk]
    · rw [if_neg he]

/-- What a changed tile was: at each place stands the tile that stood there, changed where it is the tile of the key. -/
theorem Relief.getElem?_modifyTile {r : Relief} {key : TileKey} {f : Tile → Tile} {i : Nat} {t : Tile}
    (h : (r.modifyTile key f).tiles[i]? = some t) :
    r.tiles[i]? = some t ∨ ∃ u, r.tile? key = some u ∧ r.tiles[i]? = some u ∧ t = f u := by
  unfold modifyTile at h
  split at h
  · next hb =>
    simp only [List.getElem?_modify] at h
    split at h
    · next hi =>
      obtain ⟨u, hu, rfl⟩ : ∃ u, r.tiles[i]? = some u ∧ f u = t := by simpa using h
      exact .inr ⟨u, by rw [tile?, if_pos hb, hi, hu], hu, rfl⟩
    · exact .inl (by simpa using h)
  · exact .inl h

theorem Relief.mem_modifyTile {r : Relief} {key : TileKey} {f : Tile → Tile} {t : Tile}
    (h : t ∈ (r.modifyTile key f).tiles) : t ∈ r.tiles ∨ ∃ u, u ∈ r.tiles ∧ r.tile? key = some u ∧ t = f u := by
  obtain ⟨i, hi⟩ := List.mem_iff_getElem?.mp h
  rcases getElem?_modifyTile hi with h | ⟨u, hk, hu, e⟩
  · exact .inl (List.mem_of_getElem? h)
  · exact .inr ⟨u, List.mem_of_getElem? hu, hk, e⟩

/-- A change of one tile that keeps its dependents count keeps every count. -/
theorem Relief.dependentsAt_modifyTile (r : Relief) (key : TileKey) (f : Tile → Tile)
    (hf : ∀ t, (f t).dependents = t.dependents) (i : Nat) :
    (r.modifyTile key f).dependentsAt i = r.dependentsAt i := by
  unfold modifyTile dependentsAt
  split
  · cases h : r.tiles[i]? with
    | none => simp [List.getElem?_modify, h]
    | some t =>
      simp only [List.getElem?_modify, h, Option.map_some]
      split <;> simp [hf]
  · rfl

theorem Relief.stateAt_modifyTile (r : Relief) (key k : TileKey) (f : Tile → Tile) :
    (r.modifyTile key f).stateAt k =
      if k = key then (r.tile? key).map fun t => (f t).state else r.stateAt k := by
  unfold stateAt
  rw [tile?_modifyTile]
  split <;> simp [Function.comp_def]

/-! ## The dependents counts changed -/

/-- A change of dependents counts shows in the count of the tiles covered, and nowhere else. -/
theorem Relief.getElem?_adjustDependents (r : Relief) (fp : Footprint) (f : Nat → Nat) (i : Nat) :
    (r.adjustDependents fp f).tiles[i]? = r.tiles[i]?.map fun t =>
      if fp.covers (i % r.tw) (i / r.tw) then { t with dependents := f t.dependents } else t := by
  simp [adjustDependents]

theorem Relief.stateAt_adjustDependents (r : Relief) (fp : Footprint) (f : Nat → Nat) (key : TileKey) :
    (r.adjustDependents fp f).stateAt key = r.stateAt key := by
  unfold stateAt
  rw [adjustDependents, tile?_withTiles, tile?]
  split
  · rw [List.getElem?_mapIdx, Option.map_map]
    congr 1
    funext t
    simp only [Function.comp_apply]
    split <;> rfl
  · rfl

theorem Relief.mem_adjustDependents {r : Relief} {fp : Footprint} {f : Nat → Nat} {t : Tile}
    (h : t ∈ (r.adjustDependents fp f).tiles) :
    t ∈ r.tiles ∨ ∃ i u, r.tiles[i]? = some u ∧ fp.covers (i % r.tw) (i / r.tw) = true ∧
      t = { u with dependents := f u.dependents } := by
  obtain ⟨i, hi⟩ := List.mem_iff_getElem?.mp h
  rw [getElem?_adjustDependents] at hi
  obtain ⟨u, hu, rfl⟩ : ∃ u, r.tiles[i]? = some u ∧
      (if fp.covers (i % r.tw) (i / r.tw) then { u with dependents := f u.dependents } else u) = t := by
    simpa using hi
  split
  · next hc => exact .inr ⟨i, u, hu, hc, rfl⟩
  · exact .inl (List.mem_of_getElem? hu)

/-! ## Footprints -/

/-- The tiles a footprint lists are those it covers (R90). -/
theorem Footprint.mem_tiles (fp : Footprint) (key : TileKey) : key ∈ fp.tiles ↔ fp.covers key.tx key.ty = true := by
  obtain ⟨tx, ty⟩ := key
  simp only [tiles, covers, List.mem_flatMap, List.mem_map, List.mem_range'_1, TileKey.mk.injEq, Bool.and_eq_true,
    decide_eq_true_eq]
  constructor
  · rintro ⟨y, hy, x, hx, rfl, rfl⟩
    omega
  · rintro ⟨⟨⟨h1, h2⟩, h3⟩, h4⟩
    exact ⟨ty, by omega, tx, by omega, rfl, rfl⟩

/-- The tile test passed: every tile of the table that the footprint covers is SEALED (R89). -/
theorem State.tilesSealed_covered {s : State} {k : CopySlot} {t : Strip} (h : s.tilesSealed k t = true) {i : Nat}
    {u : Tile} (hu : s.relief.tiles[i]? = some u)
    (hc : (s.footprintOf k t).covers (i % s.relief.tw) (i / s.relief.tw) = true) : u.state = .sealed := by
  have hs := List.all_eq_true.mp h ⟨i % s.relief.tw, i / s.relief.tw⟩ ((Footprint.mem_tiles _ _).mpr hc)
  unfold Relief.isSealed at hs
  split at hs
  · next v hv =>
    have hi : s.relief.tileIndex ⟨i % s.relief.tw, i / s.relief.tw⟩ = i := by
      rw [Relief.tileIndex, Nat.mul_comm]
      exact Nat.div_add_mod _ _
    obtain ⟨hv, -, -⟩ := Relief.tile?_some hv
    rw [hi, hu, Option.some.injEq] at hv
    subst hv
    simpa using hs
  · cases hs

end Sys2Proof.Machine

namespace Sys2Proof.Machine

/-! ## Staging slots found (R7, R9, R15) -/

/-- The lowest-numbered slot in use that meets a condition, with its number. -/
def State.slotWhere (s : State) (p : Slot → Bool) : Option (Fin 4 × Slot) :=
  allFour.findSome? fun i => ((s.staging.get i).filter p).map fun x => (i, x)

theorem State.slotWhere_some {s : State} {p : Slot → Bool} {i : Fin 4} {x : Slot} (h : s.slotWhere p = some (i, x)) :
    s.staging.get i = some x ∧ p x = true := by
  obtain ⟨j, -, hj⟩ := List.exists_of_findSome?_eq_some h
  obtain ⟨y, hy, he⟩ := Option.map_eq_some_iff.mp hj
  cases he
  exact Option.filter_eq_some_iff.mp hy

theorem State.slotWhere_eq_none_iff {s : State} {p : Slot → Bool} :
    s.slotWhere p = none ↔ ∀ i x, s.staging.get i = some x → p x = false := by
  simp only [slotWhere, List.findSome?_eq_none_iff, Option.map_eq_none_iff, Option.filter_eq_none_iff,
    Bool.not_eq_true]
  exact ⟨fun h i => h i (mem_allFour i), fun h i _ => h i⟩

theorem State.findSlot_eq_slotWhere (s : State) (key : TileKey) :
    s.findSlot key = s.slotWhere fun x => decide (x.key = key) := by
  unfold findSlot slotWhere
  congr 1
  funext i
  cases s.staging.get i with
  | none => rfl
  | some x => by_cases h : x.key = key <;> simp [h, Option.filter]

theorem State.preloadingSlot_eq_slotWhere (s : State) : s.preloadingSlot = s.slotWhere Slot.preloading := by
  unfold preloadingSlot slotWhere
  congr 1
  funext i
  cases s.staging.get i with
  | none => rfl
  | some x => cases h : x.preloading <;> simp [h, Option.filter]

theorem State.sealingSlot_eq_slotWhere (s : State) : s.sealingSlot = s.slotWhere Slot.sealing := by
  unfold sealingSlot slotWhere
  congr 1
  funext i
  cases s.staging.get i with
  | none => rfl
  | some x => cases h : x.sealing <;> simp [h, Option.filter]

/-- The slot whose preload is in flight is in use (R9). -/
theorem State.preloadingSlot_some {s : State} {i : Fin 4} {x : Slot} (h : s.preloadingSlot = some (i, x)) :
    s.staging.get i = some x ∧ x.preloading = true :=
  slotWhere_some (s.preloadingSlot_eq_slotWhere ▸ h)

/-- The slot whose seal is in flight is in use (R15). -/
theorem State.sealingSlot_some {s : State} {i : Fin 4} {x : Slot} (h : s.sealingSlot = some (i, x)) :
    s.staging.get i = some x ∧ x.sealing = true :=
  slotWhere_some (s.sealingSlot_eq_slotWhere ▸ h)

theorem State.preloadingSlot_eq_none_iff (s : State) :
    s.preloadingSlot = none ↔ ∀ i x, s.staging.get i = some x → x.preloading = false := by
  rw [preloadingSlot_eq_slotWhere, slotWhere_eq_none_iff]

theorem State.sealingSlot_eq_none_iff (s : State) :
    s.sealingSlot = none ↔ ∀ i x, s.staging.get i = some x → x.sealing = false := by
  rw [sealingSlot_eq_slotWhere, slotWhere_eq_none_iff]

theorem State.findSlot_eq_none_iff (s : State) (key : TileKey) :
    s.findSlot key = none ↔ ∀ i x, s.staging.get i = some x → x.key ≠ key := by
  simp only [findSlot_eq_slotWhere, slotWhere_eq_none_iff, decide_eq_false_iff_not, ne_eq]

/-- The free slot found is the lowest-numbered (R7). -/
theorem State.freeSlot_eq_some_iff (s : State) (i : Fin 4) :
    s.freeSlot = some i ↔ s.staging.get i = none ∧ ∀ j, j < i → s.staging.get j ≠ none := by
  have hsorted : allFour.Pairwise (· < ·) := by decide
  unfold freeSlot
  rw [List.find?_eq_some_iff_append, Option.isNone_iff_eq_none]
  refine and_congr_right fun _ => ⟨?_, fun h => ?_⟩
  · rintro ⟨a, b, he, ha⟩ j hj
    have hmem : j ∈ a := by
      have hj' := mem_allFour j
      rw [he] at hj' hsorted
      obtain ⟨-, hb, -⟩ := List.pairwise_append.mp hsorted
      rcases List.mem_append.mp hj' with h | h
      · exact h
      · rcases List.mem_cons.mp h with rfl | h
        · exact absurd hj (lt_irrefl _)
        · exact absurd ((List.pairwise_cons.mp hb).1 j h) (not_lt_of_gt hj)
    simpa [Option.isSome_iff_ne_none] using ha j hmem
  · obtain ⟨a, b, he⟩ := List.append_of_mem (mem_allFour i)
    refine ⟨a, b, he, fun j hj => ?_⟩
    rw [he] at hsorted
    have hlt := (List.pairwise_append.mp hsorted).2.2 j hj i List.mem_cons_self
    simpa [Option.isSome_iff_ne_none] using h j hlt

theorem State.freeSlot_eq_none_iff (s : State) : s.freeSlot = none ↔ ∀ i, s.staging.get i ≠ none := by
  simp only [freeSlot, List.find?_eq_none, Option.isNone_iff_eq_none]
  exact ⟨fun h i => h i (mem_allFour i), fun h i _ => h i⟩

/-! ## What keeps a relief from being defined anew (R2) -/

theorem State.reliefInUse_eq_true_iff (s : State) :
    s.reliefInUse = true ↔ (∃ k, (s.copy k).state ≠ .free) ∨ ∃ i, s.staging.get i ≠ none := by
  have hc : s.copies.toList = allSix.map s.copies.get := rfl
  have hs : s.staging.toList = allFour.map s.staging.get := rfl
  simp only [reliefInUse, Bool.or_eq_true, hc, hs, List.any_map, List.any_eq_true, Function.comp_apply,
    decide_eq_true_eq, mem_allSix, mem_allFour, true_and, Option.isSome_iff_ne_none, copy]

/-- Nothing in use: every copy FREE and every staging slot free. -/
theorem State.unused_of_reliefInUse {s : State} (h : s.reliefInUse = false) :
    (∀ k, (s.copy k).state = .free) ∧ ∀ i, s.staging.get i = none := by
  rw [← Bool.not_eq_true, reliefInUse_eq_true_iff, not_or, not_exists, not_exists] at h
  exact ⟨fun k => not_not.mp (h.1 k), fun i => not_not.mp (h.2 i)⟩

end Sys2Proof.Machine

namespace Sys2Proof.Machine

/-! ## Strip tables -/

/-- Whether the recorded footprint of a strip covers a tile (R90). -/
def Strip.covers (t : Strip) (tx ty : Nat) : Bool := t.footprint.any fun fp => fp.covers tx ty

theorem Copy.covering_eq_countP (c : Copy) (tx ty : Nat) :
    c.covering tx ty = c.queue.countP fun t => t.covers tx ty := by
  unfold covering Strip.covers
  congr 1
  funext t
  cases t.footprint <;> rfl

theorem Strip.covers_of_none {t : Strip} (h : t.footprint = none) (tx ty : Nat) : t.covers tx ty = false := by
  rw [covers, h]; rfl

/-- No footprint recorded: no tile covered. -/
theorem Copy.covering_eq_zero {c : Copy} (h : ∀ t ∈ c.queue, t.footprint = none) (tx ty : Nat) :
    c.covering tx ty = 0 := by
  rw [covering_eq_countP, List.countP_eq_zero]
  intro t ht
  simp [Strip.covers_of_none (h t ht)]

/-- A strip changed without a change of its index, of its footprint, or back to PLANNED. -/
def Strip.KeepsPlace (t u : Strip) : Prop :=
  u.index = t.index ∧ u.footprint = t.footprint ∧ (u.state = .planned → t.state = .planned)

/-- What a change of a copy keeps whatever else it does: its strip table in order with the tiles it covers, and its cut
map in canonical form. -/
def Copy.Follows (c d : Copy) : Prop :=
  (c.tidy → d.tidy ∧ ∀ tx ty, d.covering tx ty = c.covering tx ty) ∧
    (Cells.canonical c.f0 c.floors → Cells.canonical d.f0 d.floors)

theorem Copy.Follows.refl (c : Copy) : c.Follows c := ⟨fun h => ⟨h, fun _ _ => rfl⟩, id⟩

theorem Copy.Follows.trans {a b c : Copy} (h1 : a.Follows b) (h2 : b.Follows c) : a.Follows c :=
  ⟨fun h => ⟨(h2.1 (h1.1 h).1).1, fun tx ty => ((h2.1 (h1.1 h).1).2 tx ty).trans ((h1.1 h).2 tx ty)⟩,
    fun h => h2.2 (h1.2 h)⟩

section
variable {c d : Copy}

/-- The strips changed in their places, or moved: the copy follows if no strip changes its index or footprint or goes
back to PLANNED. -/
theorem Copy.Follows.of_map {q : List Strip} {g : Strip → Strip} (hp : q.Perm c.queue) (hq : d.queue = q.map g)
    (hg : ∀ t ∈ c.queue, t.KeepsPlace (g t))
    (hs : d.state = .free ∨ d.state = .clearing → c.state = .free ∨ c.state = .clearing)
    (hm : Cells.canonical c.f0 c.floors → Cells.canonical d.f0 d.floors) : c.Follows d := by
  have hidx : d.queue.map Strip.index = q.map Strip.index := by
    rw [hq, List.map_map]
    exact List.map_congr_left fun t ht => (hg t (hp.mem_iff.mp ht)).1
  refine ⟨fun ⟨hn, hpl, he⟩ => ⟨⟨?_, ?_, ?_⟩, fun tx ty => ?_⟩, hm⟩
  · rw [hidx]
    exact (hp.map _).nodup_iff.mpr hn
  · intro u hu hst
    obtain ⟨t, ht, rfl⟩ := List.mem_map.mp (hq ▸ hu)
    obtain ⟨-, hfp, hback⟩ := hg t (hp.mem_iff.mp ht)
    rw [hfp]
    exact hpl t (hp.mem_iff.mp ht) (hback hst)
  · intro h
    rw [hq, (he (hs h) ▸ hp : q.Perm []).eq_nil, List.map_nil]
  · rw [covering_eq_countP, covering_eq_countP, hq, List.countP_map, ← hp.countP_eq]
    refine List.countP_congr fun t ht => ?_
    simp only [Function.comp_apply, Strip.covers, (hg t (hp.mem_iff.mp ht)).2.1]

/-- A copy whose strips stay as they are. -/
theorem Copy.Follows.of_queue (hq : d.queue = c.queue)
    (hs : d.state = .free ∨ d.state = .clearing → c.state = .free ∨ c.state = .clearing)
    (hm : Cells.canonical c.f0 c.floors → Cells.canonical d.f0 d.floors) : c.Follows d :=
  .of_map (g := id) (.refl _) (by simp [hq]) (fun _ _ => ⟨rfl, rfl, id⟩) hs hm

/-- Strips without a footprint removed. -/
theorem Copy.Follows.of_filter {p : Strip → Bool} (hq : d.queue = c.queue.filter p)
    (hp : c.tidy → ∀ t ∈ c.queue, p t = false → t.footprint = none) (hs : d.state = c.state)
    (hm : Cells.canonical c.f0 c.floors → Cells.canonical d.f0 d.floors) : c.Follows d := by
  refine ⟨fun htidy => ?_, hm⟩
  have hnone := hp htidy
  obtain ⟨hn, hpl, he⟩ := htidy
  refine ⟨⟨?_, ?_, ?_⟩, fun tx ty => ?_⟩
  · rw [hq]
    exact hn.sublist (List.filter_sublist.map _)
  · intro t ht
    exact hpl t (List.mem_filter.mp (hq ▸ ht)).1
  · rw [hs, hq]
    intro h
    rw [he h, List.filter_nil]
  · rw [covering_eq_countP, covering_eq_countP, hq, List.countP_filter]
    refine List.countP_congr fun t ht => ?_
    cases hpt : p t
    · simp [Strip.covers_of_none (hnone t ht hpt)]
    · simp

/-- Every strip gone, none of them with a footprint, and the cut map empty. -/
theorem Copy.Follows.of_empty (hq : d.queue = []) (hm : d.floors = [])
    (hc : c.tidy → ∀ t ∈ c.queue, t.footprint = none) : c.Follows d := by
  refine ⟨fun h => ⟨⟨by simp [hq], by simp [hq], fun _ => hq⟩, fun tx ty => ?_⟩, fun _ => ?_⟩
  · rw [covering_eq_zero (hc h), covering_eq_zero (by simp [hq])]
  · rw [hm]
    exact ⟨.nil, by simp⟩

end

/-- The number found stands behind no strip's, or every number tried is some strip's. -/
theorem firstUnused_spec (q : List Strip) (fuel i : Nat) :
    firstUnused q fuel i ∉ q.map Strip.index ∨
      firstUnused q fuel i = i + fuel ∧ ∀ j, i ≤ j → j < i + fuel → j ∈ q.map Strip.index := by
  induction fuel generalizing i with
  | zero => exact .inr ⟨rfl, fun j h1 h2 => by omega⟩
  | succ fuel ih =>
    unfold firstUnused
    split
    · next hi =>
      have hmem : i ∈ q.map Strip.index := by simpa using hi
      refine (ih (i + 1)).imp_right fun ⟨e, h⟩ => ⟨by omega, fun j h1 h2 => ?_⟩
      by_cases hj : j = i
      · exact hj ▸ hmem
      · exact h j (by omega) (by omega)
    · next hi => exact .inl (by simpa using hi)

/-- The lowest-numbered unused strip slot is unused (R64): n strips cannot have all the numbers 0 to n. -/
theorem Copy.lowestUnused_notMem (c : Copy) : c.lowestUnused ∉ c.queue.map Strip.index := by
  refine (firstUnused_spec c.queue c.queue.length 0).elim id fun ⟨e, h⟩ hmem => ?_
  have hsub : List.range (c.queue.length + 1) ⊆ c.queue.map Strip.index := by
    intro j hj
    by_cases hl : j = c.queue.length
    · rw [hl]
      simpa [lowestUnused, e] using hmem
    · exact h j (by omega) (by have := List.mem_range.mp hj; omega)
  have := (List.subperm_of_subset List.nodup_range hsub).length_le
  simp at this

/-- One descriptor taken leaves the copy as it is or puts a strip to the tail, under the lowest unused index (R69). -/
theorem takeDescriptor_cases (c : Copy) (n : LoadCounts) (d : Descriptor) :
    (takeDescriptor (c, n) d).1 = c ∨ ∃ length,
      (takeDescriptor (c, n) d).1 = { c with queue := c.queue ++ [acceptedStrip d c.lowestUnused length] } := by
  unfold takeDescriptor
  dsimp only
  split
  · exact .inl rfl
  · split
    · exact .inl rfl
    · exact .inr ⟨_, rfl⟩

/-- A PLANNED strip put to the tail under an unused index, in a copy that may hold strips. -/
theorem Copy.Follows.of_append {c : Copy} {t : Strip} (hi : t.index ∉ c.queue.map Strip.index)
    (hf : t.footprint = none) (hs : c.state ≠ .free ∧ c.state ≠ .clearing) :
    c.Follows { c with queue := c.queue ++ [t] } := by
  refine ⟨fun ⟨hn, hpl, he⟩ => ⟨⟨?_, ?_, ?_⟩, fun tx ty => ?_⟩, id⟩
  · rw [List.map_append]
    refine List.nodup_append.mpr ⟨hn, by simp, fun a ha b hb => ?_⟩
    rintro rfl
    exact hi (List.mem_singleton.mp hb ▸ ha)
  · intro u hu hst
    rcases List.mem_append.mp hu with hu | hu
    · exact hpl u hu hst
    · rw [List.mem_singleton.mp hu, hf]
  · intro h
    exact absurd h (by simp [hs])
  · rw [covering_eq_countP, covering_eq_countP, List.countP_append]
    simp [Strip.covers_of_none hf]

theorem takeDescriptor_follows (c : Copy) (n : LoadCounts) (d : Descriptor)
    (hs : c.state ≠ .free ∧ c.state ≠ .clearing) :
    c.Follows (takeDescriptor (c, n) d).1 ∧ (takeDescriptor (c, n) d).1.state = c.state := by
  obtain e | ⟨length, e⟩ := takeDescriptor_cases c n d
  · rw [e]
    exact ⟨.refl c, rfl⟩
  · rw [e]
    exact ⟨.of_append c.lowestUnused_notMem rfl hs, rfl⟩

/-- The descriptors of a plan taken one after another (R69). -/
theorem takeDescriptors_follows (c : Copy) (ds : List Descriptor) (hs : c.state ≠ .free ∧ c.state ≠ .clearing) :
    c.Follows (takeDescriptors c ds).1 ∧ (takeDescriptors c ds).1.state = c.state := by
  unfold takeDescriptors
  generalize ({ accepted := 0, clipped := 0, outOfExtent := 0, overflow := 0 } : LoadCounts) = n
  induction ds generalizing c n with
  | nil => exact ⟨.refl c, rfl⟩
  | cons d ds ih =>
    obtain ⟨h1, e1⟩ := takeDescriptor_follows c n d hs
    obtain ⟨h2, e2⟩ := ih (takeDescriptor (c, n) d).1 (e1 ▸ hs) (takeDescriptor (c, n) d).2
    exact ⟨h1.trans h2, e2.trans e1⟩

/-- A strip changed in its place. -/
theorem Copy.updateStrip_follows (c : Copy) (i : Nat) {f : Strip → Strip}
    (hf : ∀ t ∈ c.queue, t.index = i → t.KeepsPlace (f t)) : c.Follows (c.updateStrip i f) := by
  refine .of_map (.refl _) rfl (fun t ht => ?_) id id
  split
  · next h => exact hf t ht h
  · exact ⟨rfl, rfl, id⟩

/-- A strip moved to the tail. -/
theorem Copy.requeueStrip_follows (c : Copy) (i : Nat) {f : Strip → Strip}
    (hf : ∀ t : Strip, t.KeepsPlace (f t)) :
    c.Follows (c.requeueStrip i f) := by
  have hp : ((c.queue.filter fun t => decide (t.index ≠ i)) ++ c.queue.filter fun t => decide (t.index = i)).Perm
      c.queue := by
    have := List.filter_append_perm (fun t : Strip => decide (t.index ≠ i)) c.queue
    simpa using this
  refine .of_map (g := fun t => if t.index = i then f t else t) hp ?_ (fun t _ => ?_) id id
  · rw [List.map_append]
    refine congrArg₂ (· ++ ·) ?_ ?_
    · refine (List.map_id _).symm.trans (List.map_congr_left fun t ht => ?_)
      have : t.index ≠ i := by simpa using (List.mem_filter.mp ht).2
      simp [this]
    · refine List.map_congr_left fun t ht => ?_
      have : t.index = i := by simpa using (List.mem_filter.mp ht).2
      simp [this]
  · split
    · exact hf t
    · exact ⟨rfl, rfl, id⟩

/-- A strip without a footprint removed. -/
theorem Copy.removeStrip_follows (c : Copy) (i : Nat) (h : ∀ t ∈ c.queue, t.index = i → t.footprint = none) :
    c.Follows (c.removeStrip i) :=
  .of_filter rfl (fun _ t ht hi => h t ht (by simpa using hi)) rfl id

end Sys2Proof.Machine

namespace Sys2Proof.Machine

/-! ## What one piece of a command does to the relief, the staging slots and the copies -/

/-- One change of the relief, the staging slots or the copies, as the commands are made of them. -/
inductive StoreChange : State → State → Prop
  /-- Nothing but ports, spindles, engine, wanted tile or sealed count, and copies that follow. -/
  | kept (s t : State) (mw : t.relief.mw = s.relief.mw) (mh : t.relief.mh = s.relief.mh)
      (tiles : t.relief.tiles = s.relief.tiles) (staging : t.staging = s.staging)
      (copies : ∀ k, (s.copy k).Follows (t.copy k)) : StoreChange s t
  /-- A strip the search found is issued (R92). -/
  | issued (s : State) (n : SpindleId) (k : CopySlot) (t : Strip) (found : s.search n k = some t) :
      StoreChange s (s.issueStrip n k t)
  /-- A live strip leaves (R77); that it is live may rest on the strips of its copy having distinct indices. -/
  | left (s : State) (k : CopySlot) (t : Strip) (record : Bool)
      (live : ((s.copy k).queue.map Strip.index).Nodup → t ∈ (s.copy k).queue) : StoreChange s (s.leave k t record)
  /-- A free slot claimed for an ABSENT tile, or for a SEALED one without dependents (R8, R9). -/
  | claimed (s : State) (i : Fin 4) (key : TileKey) (mode : SlotMode) (st : TileState) (t : Tile)
      (free : s.staging.get i = none) (tile : s.relief.tile? key = some t)
      (opens : mode = .first ∧ st = .staging ∧ t.state = .absent ∨
        mode = .rescan ∧ st = .rescanning ∧ t.state = .sealed ∧ t.dependents = 0) :
      StoreChange s (s.claim i key mode st)
  /-- What a slot in use holds changed (R9, R10, R15). -/
  | filled (s : State) (i : Fin 4) (x y : Slot) (used : s.staging.get i = some x) (key : y.key = x.key)
      (mode : y.mode = x.mode) (samples : Cells.wf x.samples → Cells.wf y.samples) :
      StoreChange s (s.setStaging i (some y))
  /-- The seal of a slot completed (R16). -/
  | sealed (s : State) (i : Fin 4) (x : Slot) (used : s.staging.get i = some x) :
      StoreChange s ((s.setRelief (s.relief.completeSeal x)).setStaging i none)
  /-- A slot freed as DROP TILE frees it (R19). -/
  | freed (s : State) (i : Fin 4) : StoreChange s (s.freeStaging i)
  /-- A new relief defined, no copy and no slot being in use (R2). -/
  | defined (s : State) (mw mh : Nat) (unused : s.reliefInUse = false) :
      StoreChange s (s.setRelief (Relief.define mw mh))
  /-- The relief and the staging slots after a WARM RESET (R24). -/
  | warm (s : State) : StoreChange s { s with relief := s.relief.warmReset, staging := Four.fill none }
  /-- Everything at its power-on value (R25, R47). -/
  | cleared (s t : State) (relief : t.relief = Relief.fresh) (staging : t.staging = Four.fill none)
      (copies : t.copies = Six.fill Copy.free) : StoreChange s t

/-- Changes of the stores one after another. -/
def StoresMove : State → State → Prop := Relation.ReflTransGen StoreChange

/-- What every change keeps, changes one after another keep. -/
theorem StoresMove.induct {P : State → Prop} (step : ∀ s t, StoreChange s t → P s → P t) {s t : State}
    (h : StoresMove s t) (hs : P s) : P t := by
  induction h with
  | refl => exact hs
  | tail _ hc ih => exact step _ _ hc ih

theorem StoresMove.refl (s : State) : StoresMove s s := Relation.ReflTransGen.refl

theorem StoresMove.trans {s t u : State} (h : StoresMove s t) (h' : StoresMove t u) : StoresMove s u :=
  Relation.ReflTransGen.trans h h'

section
variable {s t u : State}

theorem StoresMove.next (h : StoresMove s t) (hc : StoreChange t u) : StoresMove s u :=
  Relation.ReflTransGen.tail h hc

/-- The copies changed, each following the copy it was. -/
theorem StoresMove.copies (h : StoresMove s t) (hr : u.relief = t.relief) (hs : u.staging = t.staging)
    (hc : ∀ k, (t.copy k).Follows (u.copy k)) : StoresMove s u :=
  h.next (.kept _ _ (by rw [hr]) (by rw [hr]) (by rw [hr]) hs hc)

/-- Only the wanted tile and the count of sealed tiles changed in the relief. -/
theorem StoresMove.wanted (h : StoresMove s t) (key : Option TileKey) :
    StoresMove s (t.setRelief { t.relief with wanted := key }) :=
  h.next (.kept _ _ rfl rfl rfl rfl fun _ => .refl _)

/-- Nothing of the stores changed. -/
theorem StoresMove.same (h : StoresMove s t) (hr : u.relief = t.relief) (hs : u.staging = t.staging)
    (hc : u.copies = t.copies) : StoresMove s u :=
  h.copies hr hs fun k => by rw [State.copy, State.copy, hc]; exact .refl _

theorem StoresMove.answer (h : StoresMove s t) (p : PortId) (c : AnswerCode) (d : List Byte) :
    StoresMove s (t.answer p c d) := h.same rfl rfl rfl

/-- An answer at once, the stores as they were. -/
theorem StoresMove.answered (s : State) (p : PortId) (c : AnswerCode) (d : List Byte) :
    StoresMove s (s.answer p c d) := (StoresMove.refl s).answer p c d

theorem StoresMove.modifyPort (h : StoresMove s t) (p : PortId) (f : Port → Port) :
    StoresMove s (t.modifyPort p f) := h.same rfl rfl rfl

theorem StoresMove.latchPlan (h : StoresMove s t) (l : PlanLatch) : StoresMove s (t.latchPlan l) := h.same rfl rfl rfl

theorem StoresMove.latchScan (h : StoresMove s t) (l : ScanLatch) : StoresMove s (t.latchScan l) := h.same rfl rfl rfl

theorem StoresMove.latchSpindle (h : StoresMove s t) (n : SpindleId) (l : SpindleLatch) :
    StoresMove s (t.latchSpindle n l) := h.same rfl rfl rfl

theorem StoresMove.modifySpindle (h : StoresMove s t) (n : SpindleId) (f : Spindle → Spindle) :
    StoresMove s (t.modifySpindle n f) := h.same rfl rfl rfl

theorem StoresMove.setEngine (h : StoresMove s t) (e : Engine) : StoresMove s (t.setEngine e) := h.same rfl rfl rfl

theorem StoresMove.setHold (h : StoresMove s t) (n : SpindleId) (time : Nat) (o : HoldOrigin) :
    StoresMove s (t.setHold n time o) := h.same rfl rfl rfl

theorem StoresMove.endHold (h : StoresMove s t) (n : SpindleId) : StoresMove s (t.endHold n) := h.same rfl rfl rfl

theorem StoresMove.grantTest (h : StoresMove s t) : StoresMove s t.grantTest := h.same (by simp) (by simp) (by simp)

theorem StoresMove.setCopy (h : StoresMove s t) (k : CopySlot) {c : Copy} (hc : (t.copy k).Follows c) :
    StoresMove s (t.setCopy k c) := by
  refine h.copies rfl rfl fun j => ?_
  by_cases hj : j = k
  · subst hj
    simpa using hc
  · rw [State.setCopy_copy_ne _ _ _ _ hj]
    exact .refl _

theorem StoresMove.modifyCopy (h : StoresMove s t) (k : CopySlot) {f : Copy → Copy}
    (hf : (t.copy k).Follows (f (t.copy k))) : StoresMove s (t.modifyCopy k f) := h.setCopy k hf

/-- The strips that held strips name changed in their places. -/
theorem StoresMove.mapNamed (h : StoresMove s t) (hs : List Held) {f : Copy → Strip → Strip}
    (hf : ∀ c u, Strip.KeepsPlace u (f c u)) : StoresMove s (t.mapNamed hs f) := by
  refine h.copies rfl rfl fun k => ?_
  rw [State.mapNamed_copy]
  refine .of_map (.refl _) rfl (fun u _ => ?_) id id
  split
  · exact hf _ u
  · exact ⟨rfl, rfl, id⟩

theorem StoresMove.updateStrip (h : StoresMove s t) (key : StripKey) {f : Strip → Strip}
    (hf : ∀ u, Strip.KeepsPlace u (f u)) : StoresMove s (t.updateStrip key f) :=
  h.modifyCopy _ (Copy.updateStrip_follows _ _ fun u _ _ => hf u)

theorem StoresMove.restartLeases (h : StoresMove s t) (hs : List Held) : StoresMove s (t.restartLeases hs) :=
  h.mapNamed hs fun _ _ => ⟨rfl, rfl, id⟩

theorem StoresMove.fenceAll (h : StoresMove s t) (n : SpindleId) (hs : List Held) : StoresMove s (t.fenceAll n hs) :=
  (h.mapNamed hs (f := fun _ u => u.fenced) fun _ _ => ⟨rfl, rfl, nofun⟩).modifySpindle n _

/-- Operations done one after another. -/
theorem StoresMove.foldl {α : Type} (f : State → α → State) (hf : ∀ s a, StoresMove s (f s a)) (l : List α)
    (h : StoresMove s t) : StoresMove s (l.foldl f t) := by
  induction l generalizing t with
  | nil => exact h
  | cons a l ih => exact ih (h.trans (hf t a))

theorem StoresMove.cancelScanHolds (h : StoresMove s t) : StoresMove s t.cancelScanHolds := by
  refine h.foldl _ (fun s n => ?_) _
  split
  · exact (StoresMove.refl s).endHold n
  · exact .refl s

/-- A request moves the stores if its own rule does. -/
theorem StoresMove.request (p : PortId) (f : State → State) (hf : ∀ v, StoresMove v (f v)) :
    StoresMove s (s.request p f) := by
  unfold State.request
  split
  · split
    · exact (StoresMove.refl s).modifyPort p _
    · exact (((StoresMove.refl s).modifyPort p _).modifyPort p _).trans (hf (s.take p))
  · exact (StoresMove.refl s).modifyPort p _

theorem StoresMove.requestAnyState (p : PortId) (f : State → State) (hf : ∀ v, StoresMove v (f v)) :
    StoresMove s (s.requestAnyState p f) := by
  unfold State.requestAnyState
  split
  · exact ((StoresMove.refl s).modifyPort p _).trans (hf (s.endFrame p []))
  · exact (StoresMove.refl s).modifyPort p _

/-- A request that carries a copy slot moves the stores if its rule for a good slot does. -/
theorem StoresMove.onCopy (b : Byte) (f : CopySlot → State → State) (hf : ∀ k v, StoresMove v (f k v)) :
    StoresMove s (s.onCopy b f) := by
  refine .request _ _ fun v => ?_
  cases slotOf b with
  | none => exact .answered v _ _ _
  | some k => exact hf k v

/-! ## Hand-on work -/

theorem StoresMove.decideReport (h : StoresMove s t) (n : SpindleId) (r : Report) :
    StoresMove s (t.decideReport n r) := by
  unfold State.decideReport
  split
  · exact h.answer _ _ _
  · exact h.answer _ _ _
  · split
    · exact h
    · exact (h.modifySpindle n _).updateStrip _ fun _ => ⟨rfl, rfl, id⟩
  · exact h.modifySpindle n _

theorem StoresMove.perform (h : StoresMove s t) (c : Chore) : StoresMove s (t.perform c) := by
  cases c with
  | evaluate n =>
    show StoresMove s (t.autoPrefetch n)
    obtain ⟨e, -⟩ | ⟨k, u, hp, e, -⟩ := t.autoPrefetch_cases n
    · rw [e]
      exact h
    · obtain ⟨_, -, -, -, -, hs⟩ := State.prefetched_some hp
      rw [e]
      exact h.next (.issued t n k u hs)
  | grant => exact h.grantTest
  | report n =>
    show StoresMove s (t.decideWaiting n)
    unfold State.decideWaiting
    split
    · exact h
    · exact (h.modifySpindle n _).decideReport n _

theorem StoresMove.handOn (h : StoresMove s t) (ts : List Chore) : StoresMove s (t.handOn ts) :=
  t.handOn_induct (P := StoresMove s) ts (h.same rfl rfl rfl) fun _ c _ hu => hu.perform c

/-! ## Strips leaving -/

theorem State.leave_copy_same (s : State) (k : CopySlot) (t : Strip) (record : Bool) :
    (s.leave k t record).copy k = (s.copy k).updateStrip t.index Strip.released := by
  rw [State.leave, State.modifyCopy_copy_same]
  simp [State.copy]

theorem State.leave_copy_ne (s : State) (k j : CopySlot) (t : Strip) (record : Bool) (h : j ≠ k) :
    (s.leave k t record).copy j = s.copy j := by
  rw [State.leave, State.modifyCopy_copy_ne _ _ _ _ h]
  simp [State.copy]

/-- A strip that has left has no footprint. -/
theorem State.leave_footprint {s : State} {k : CopySlot} {t : Strip} {record : Bool} {u : Strip}
    (h : u ∈ ((s.leave k t record).copy k).queue) (hi : u.index = t.index) : u.footprint = none := by
  rw [leave_copy_same] at h
  obtain ⟨v, -, rfl⟩ := List.mem_map.mp h
  split at hi <;> rename_i hv
  · rw [if_pos hv]; rfl
  · exact absurd hi hv

/-- A strip that has left is removed. -/
theorem StoresMove.removeLeft {k : CopySlot} {r : Strip} {record : Bool} (h : StoresMove s t)
    (hc : t.copies = (u.leave k r record).copies) : StoresMove s (t.modifyCopy k fun c => c.removeStrip r.index) := by
  refine h.modifyCopy k (Copy.removeStrip_follows _ _ fun v hv hi => ?_)
  rw [State.copy, hc] at hv
  exact State.leave_footprint hv hi

theorem StoresMove.completePass (h : StoresMove s t) (k : CopySlot) : StoresMove s (t.completePass k) :=
  (h.modifyCopy k (.of_queue rfl (by simp) id)).latchPlan _

theorem StoresMove.testPass (h : StoresMove s t) (k : CopySlot) : StoresMove s (t.testPass k) := by
  unfold State.testPass
  dsimp only
  split
  · exact h.completePass k
  · exact h

theorem StoresMove.leaveAndGrant (h : StoresMove s t) (k : CopySlot) (r : Strip) (hr : r ∈ (t.copy k).queue) :
    StoresMove s (t.leaveAndGrant k r) := by
  have hl : StoresMove s (t.leave k r true) := h.next (.left t k r true fun _ => hr)
  obtain ⟨-, e⟩ | ⟨-, e⟩ := t.leaveAndGrant_cases k r <;> rw [e]
  · exact hl.grantTest
  · exact hl

/-- Several live strips leaving one after another: g stands for the leaving as a command makes it. -/
theorem StoresMove.leaves {k : CopySlot} (g : State → Strip → State)
    (hg : ∀ v r, (((v.copy k).queue.map Strip.index).Nodup → r ∈ (v.copy k).queue) → StoresMove v (g v r))
    (hc : ∀ v r, (g v r).copy k = v.copy k ∨ (g v r).copy k = (v.copy k).updateStrip r.index Strip.released)
    (l : List Strip) (h : StoresMove s t)
    (hl : ((t.copy k).queue.map Strip.index).Nodup →
      (l.map Strip.index).Nodup ∧ ∀ r ∈ l, r ∈ (t.copy k).queue) : StoresMove s (l.foldl g t) := by
  induction l generalizing t with
  | nil => exact h
  | cons r l ih =>
    refine ih (h.trans (hg t r fun hn => (hl hn).2 r (by simp))) fun hn => ?_
    obtain e | e := hc t r <;> rw [e] at hn ⊢
    · exact ⟨(List.nodup_cons.mp (hl hn).1).2, fun x hx => (hl hn).2 x (by simp [hx])⟩
    · rw [Copy.updateStrip_indices _ _ Strip.released fun _ => rfl] at hn
      obtain ⟨hr, hnl⟩ := List.nodup_cons.mp (hl hn).1
      refine ⟨hnl, fun x hx => List.mem_map.mpr ⟨x, (hl hn).2 x (by simp [hx]), if_neg fun he => hr ?_⟩⟩
      exact he ▸ List.mem_map_of_mem hx

end

end Sys2Proof.Machine

namespace Sys2Proof.Machine

/-! ## Every command is made of these changes -/

/-- A command answers, and what it does to the stores is made of `StoreChange`s. -/
def MovesStores (i : Instr) : Prop := ∀ s, ∃ t, exec i s = .next t ∧ StoresMove s t

/-! ### Ports, frames, mailboxes -/

theorem StoresMove.poll (s : State) (p : PortId) (phase : PollPhase) : StoresMove s (s.poll p phase) := by
  cases phase <;> unfold State.poll <;> dsimp only <;> split <;> exact (StoresMove.refl s).modifyPort p _

theorem movesStores_fetch (p : PortId) (crcGood : Bool) (clocked : Nat) : MovesStores (.fetch p crcGood clocked) := by
  refine fun s => ⟨_, rfl, ?_⟩
  split
  · exact .poll s p .whole
  · split
    · dsimp only
      split
      · exact ((StoresMove.refl s).modifyPort p _).modifyPort p _
      · exact (StoresMove.refl s).modifyPort p _
    · exact (StoresMove.refl s).modifyPort p _

theorem movesStores_statusPoll (p : PortId) (phase : PollPhase) : MovesStores (.statusPoll p phase) :=
  fun s => ⟨_, rfl, .poll s p phase⟩

theorem movesStores_status (p : PortId) : MovesStores (.status p) :=
  fun _ => ⟨_, rfl, .request _ _ fun v => .answered v _ _ _⟩

theorem movesStores_badFrame (p : PortId) (flaw : FrameFlaw) : MovesStores (.badFrame p flaw) := by
  refine fun _ => ⟨_, rfl, .request _ _ fun v => .answer ?_ _ _ _⟩
  split
  · exact (StoresMove.refl v).latchScan _
  · exact .refl v

theorem movesStores_clearEvents (p : PortId) (mask : Word) : MovesStores (.clearEvents p mask) :=
  fun _ => ⟨_, rfl, .request _ _ fun v => ((StoresMove.refl v).modifyPort _ _).answer _ _ _⟩

theorem movesStores_setAttention (p : PortId) (mask : Word) (term : Byte) :
    MovesStores (.setAttention p mask term) := by
  refine fun _ => ⟨_, rfl, .request _ _ fun v => ?_⟩
  split
  · exact .answered v _ _ _
  · exact ((StoresMove.refl v).modifyPort _ _).answer _ _ _

theorem movesStores_postOrder (spindle : Byte) (content : BitVec 64) : MovesStores (.postOrder spindle content) := by
  refine fun _ => ⟨_, rfl, .request _ _ fun v => ?_⟩
  split
  · exact .answered v _ _ _
  · split
    · exact .answered v _ _ _
    · exact (((StoresMove.refl v).modifySpindle _ _).latchSpindle _ _).answer _ _ _

theorem movesStores_postNote (n : SpindleId) (content : BitVec 64) : MovesStores (.postNote n content) := by
  refine fun _ => ⟨_, rfl, .request _ _ fun v => ?_⟩
  split
  · exact .answered v _ _ _
  · exact (((StoresMove.refl v).modifySpindle _ _).latchPlan _).answer _ _ _

theorem movesStores_readOrder (n : SpindleId) : MovesStores (.readOrder n) :=
  fun _ => ⟨_, rfl, .request _ _ fun v => ((StoresMove.refl v).modifySpindle _ _).answer _ _ _⟩

theorem movesStores_readNote (spindle : Byte) : MovesStores (.readNote spindle) := by
  refine fun _ => ⟨_, rfl, .request _ _ fun v => ?_⟩
  split
  · exact .answered v _ _ _
  · exact ((StoresMove.refl v).modifySpindle _ _).answer _ _ _

/-! ### Resets -/

theorem StoresMove.freeStaging {s t : State} (h : StoresMove s t) (i : Fin 4) : StoresMove s (t.freeStaging i) :=
  h.next (.freed t i)

theorem StoresMove.resetSpindle (s : State) (n : SpindleId) : StoresMove s (s.resetSpindle n) := by
  unfold State.resetSpindle
  dsimp only
  refine .grantTest ?_
  have h := (((StoresMove.refl s).fenceAll n (s.issuedStrips n)).modifySpindle n Spindle.portReset).setEngine
    (((s.fenceAll n (s.issuedStrips n)).modifySpindle n Spindle.portReset).engine.abandonFor n)
  split
  · exact h
  · exact h.latchPlan _

theorem movesStores_portReset (p : PortId) : MovesStores (.portReset p) := by
  refine fun _ => ⟨_, rfl, .requestAnyState _ _ fun v => ?_⟩
  have h : StoresMove v (v.resetPort p) := (StoresMove.refl v).modifyPort p _
  cases p with
  | plan => exact h
  | scan => exact h.foldl _ (fun s i => (StoresMove.refl s).freeStaging i) _
  | spindle n => exact h.trans (.resetSpindle _ n)

/-- A copy after a WARM RESET: its strips in their places, or freed while it was CLEARING (R46, R84). -/
theorem Copy.warmReset_follows (c : Copy) : c.Follows c.warmReset := by
  have hk : ∀ t ∈ c.queue, t.KeepsPlace t.warmReset := by
    intro t _
    unfold Strip.warmReset
    split
    · exact ⟨rfl, rfl, nofun⟩
    · exact ⟨rfl, rfl, id⟩
  have kept (d : Copy) (hq : d.queue = c.queue.map Strip.warmReset)
      (hs : d.state = .free ∨ d.state = .clearing → c.state = .free ∨ c.state = .clearing)
      (hm : Cells.canonical c.f0 c.floors → Cells.canonical d.f0 d.floors) : c.Follows d :=
    .of_map (.refl _) hq hk hs hm
  unfold Copy.warmReset
  dsimp only
  split
  · next h => exact .of_empty rfl rfl fun ⟨_, _, he⟩ t ht => by simp [he (.inr h)] at ht
  · exact kept _ rfl (by simp) id
  · exact kept _ rfl id id
  · exact kept _ rfl id id
  · exact kept _ rfl id id

theorem StoresMove.warmReset (s : State) : StoresMove s s.warmReset :=
  ((StoresMove.refl s).next (.warm s)).copies rfl rfl fun k => by
    show (s.copies.get k).Follows ((s.copies.map Copy.warmReset).get k)
    rw [Six.get_map]
    exact Copy.warmReset_follows _

theorem movesStores_warmReset : MovesStores .warmReset :=
  fun _ => ⟨_, rfl, .requestAnyState _ _ .warmReset⟩

theorem StoresMove.holdReset (s : State) : StoresMove s s.holdReset :=
  (StoresMove.refl s).next (.cleared _ _ rfl rfl rfl)

theorem movesStores_powerOn (resetHigh : Bool) : MovesStores (.powerOn resetHigh) := by
  refine fun s => ⟨_, rfl, ?_⟩
  split
  · exact (StoresMove.holdReset s).same rfl rfl rfl
  · exact .holdReset s

theorem movesStores_resetPin (periods : Nat) : MovesStores (.resetPin periods) := by
  refine fun s => ⟨_, rfl, ?_⟩
  split
  · exact .holdReset s
  · exact .refl s

theorem movesStores_resetRelease : MovesStores .resetRelease := by
  refine fun s => ⟨_, rfl, ?_⟩
  split
  · exact (StoresMove.refl s).same rfl rfl rfl
  · exact .refl s

/-! ### Time -/

theorem Strip.tickLease_keepsPlace (t : Strip) : t.KeepsPlace t.tickLease := ⟨rfl, rfl, id⟩

theorem StoresMove.leaseTick (s : State) (n : SpindleId) : StoresMove s (s.leaseTick n) := by
  have h : StoresMove s (s.advanceLeases n) := (StoresMove.refl s).mapNamed _ fun _ u => u.tickLease_keepsPlace
  unfold State.leaseTick State.expire
  split
  · exact h
  · exact ((h.fenceAll n _).latchSpindle n _).latchPlan _

theorem StoresMove.holdTick (s : State) (n : SpindleId) : StoresMove s (s.holdTick n) := by
  unfold State.holdTick
  split
  · exact ((StoresMove.refl s).endHold n).handOn _
  · exact (StoresMove.refl s).modifySpindle n _

theorem movesStores_millisecondTick (n : SpindleId) : MovesStores (.millisecondTick n) := by
  refine fun s => ⟨_, rfl, ?_⟩
  split
  · exact .holdTick s n
  · exact .leaseTick s n

theorem movesStores_leaseExpiry (n : SpindleId) : MovesStores (.leaseExpiry n) := by
  refine fun s => ⟨_, rfl, ?_⟩
  split
  · exact .leaseTick s n
  · exact .refl s

theorem movesStores_holdCountdownEnd (n : SpindleId) : MovesStores (.holdCountdownEnd n) := by
  refine fun s => ⟨_, rfl, ?_⟩
  split
  · exact .holdTick s n
  · exact .refl s

/-! ### The relief and its tiles -/

theorem movesStores_openTile (tx ty : Byte) : MovesStores (.openTile tx ty) := by
  refine fun s => ⟨_, rfl, .request _ _ fun v => ?_⟩
  dsimp only
  split
  · exact .answered v _ _ _
  · split
    · exact .answered v _ _ _
    · next t ht =>
      split
      · exact .answered v _ _ _
      · exact .answered v _ _ _
      · next hs =>
        split
        · exact .answered v _ _ _
        · next i hi =>
          exact ((StoresMove.refl v).next
            (.claimed v i _ .first .staging t (State.freeSlot_some hi) ht (.inl ⟨rfl, rfl, hs⟩))).answer _ _ _
      · next hs =>
        split
        · exact .answered v _ _ _
        · next i hi =>
          split
          · exact .answered v _ _ _
          · next hd =>
            exact (StoresMove.refl v).next (.claimed v i _ .rescan .rescanning t (State.freeSlot_some hi) ht
              (.inr ⟨rfl, rfl, hs, by omega⟩))

theorem allSamples_wf (buffer : Cells Word) : Cells.wf (allSamples buffer) :=
  List.pairwise_map.mpr List.pairwise_lt_range

theorem movesStores_rescanPreloadCompletion : MovesStores .rescanPreloadCompletion := by
  refine fun s => ⟨_, rfl, ?_⟩
  split
  · exact .refl s
  · next i x hx =>
    split
    · exact .refl s
    · next t _ =>
      refine .answer (.next (.refl s) ?_) _ _ _
      refine .filled s i x _ (State.preloadingSlot_some hx).1 rfl rfl fun _ => ?_
      dsimp only
      exact allSamples_wf t.current

theorem movesStores_putSamples (tx ty : Byte) (offset : Word) (samples : List Word) :
    MovesStores (.putSamples tx ty offset samples) := by
  refine fun _ => ⟨_, rfl, .request _ _ fun v => ?_⟩
  split
  · exact .answered v _ _ _
  · next i x hx =>
    split
    · exact .answered v _ _ _
    · refine .answer (.next (.refl v) ?_) _ _ _
      exact .filled v i x _ (State.findSlot_some hx).1 rfl rfl fun h => Cells.wf_insertRun h _ _

theorem movesStores_viewStaging (tx ty : Byte) (offset : Word) (count : Byte) :
    MovesStores (.viewStaging tx ty offset count) := by
  refine fun _ => ⟨_, rfl, .request _ _ fun v => ?_⟩
  split
  · exact .answered v _ _ _
  · split
    · exact .answered v _ _ _
    · exact .answered v _ _ _

theorem movesStores_sealTile (tx ty : Byte) (crc : Word) : MovesStores (.sealTile tx ty crc) := by
  refine fun _ => ⟨_, rfl, .request _ _ fun v => ?_⟩
  split
  · exact .answered v _ _ _
  · next i x hx =>
    split
    · exact .answered v _ _ _
    · dsimp only
      split
      · exact .answered v _ _ _
      · exact (StoresMove.refl v).next (.filled v i x _ (State.findSlot_some hx).1 rfl rfl id)

theorem movesStores_sealCompletion : MovesStores .sealCompletion := by
  refine fun s => ⟨_, rfl, ?_⟩
  split
  · exact .refl s
  · next i x hx =>
    split
    · exact .refl s
    · exact (((((StoresMove.refl s).next (.sealed s i x (State.sealingSlot_some hx).1)).answer _ _ _).latchScan
        _).latchPlan _).cancelScanHolds.handOn _

theorem movesStores_dropTile (tx ty : Byte) : MovesStores (.dropTile tx ty) := by
  refine fun _ => ⟨_, rfl, .request _ _ fun v => ?_⟩
  split
  · exact .answered v _ _ _
  · exact ((StoresMove.refl v).freeStaging _).answer _ _ _

theorem movesStores_defineRelief (mw mh : Word) : MovesStores (.defineRelief mw mh) := by
  refine fun _ => ⟨_, rfl, .request _ _ fun v => ?_⟩
  dsimp only
  split
  · exact .answered v _ _ _
  · next hu =>
    split
    · exact .answered v _ _ _
    · exact ((StoresMove.refl v).next (.defined v _ _ (by simpa using hu))).answer _ _ _

theorem movesStores_readRelief (iy ix0 : Word) (count : Byte) : MovesStores (.readRelief iy ix0 count) := by
  refine fun _ => ⟨_, rfl, .request _ _ fun v => ?_⟩
  dsimp only
  split
  · exact .answered v _ _ _
  · split
    · exact .answered v _ _ _
    · exact .answered v _ _ _

/-! ### Copies -/

theorem movesStores_defineCopy (args : CopyArgs) : MovesStores (.defineCopy args) := by
  refine fun _ => ⟨_, rfl, .onCopy _ _ fun k v => ?_⟩
  split
  · exact .answered v _ _ _
  · split
    · exact .answered v _ _ _
    · next hfree =>
      split
      · exact .answered v _ _ _
      · split
        · exact .answered v _ _ _
        · refine ((StoresMove.refl v).setCopy k (.of_empty rfl rfl fun ⟨_, _, he⟩ t ht => ?_)).answer _ _ _
          simp [he (.inl (not_not.mp hfree))] at ht

theorem movesStores_clearCompletion (slot : CopySlot) : MovesStores (.clearCompletion slot) := by
  refine fun s => ⟨_, rfl, ?_⟩
  split
  · exact ((StoresMove.refl s).modifyCopy slot (.of_queue rfl (by simp) id)).latchPlan _
  · exact .refl s

theorem StoresMove.withdraw (s : State) (k : CopySlot) (t : Strip)
    (live : ((s.copy k).queue.map Strip.index).Nodup → t ∈ (s.copy k).queue) : StoresMove s (s.withdraw k t) := by
  unfold State.withdraw
  split
  · exact ((StoresMove.refl s).next (.left s k t true live)).latchSpindle _ _
  · exact .refl s

/-- The strips one SET PASS withdraws are live when their turn comes: indices are distinct (R64, R116). -/
theorem StoresMove.withdrawAll (s : State) (k : CopySlot) : StoresMove s (s.withdrawAll k) := by
  unfold State.withdrawAll
  dsimp only
  split
  · exact .refl s
  · have h : StoresMove s { s with choices := s.choices + 1 } := (StoresMove.refl s).same rfl rfl rfl
    refine .handOn (.leaves (k := k) _ (fun v r live => .withdraw v k r live) (fun v r => ?_) _ h fun hn => ?_) _
    · unfold State.withdraw
      split
      · exact .inr (v.leave_copy_same k r true)
      · exact .inl rfl
    · have hp := permute_perm (Config.handOnOrder s.choices) ((s.copy k).queue.filter (s.withdrawable k))
      exact ⟨(hp.map _).nodup_iff.mpr (hn.sublist (List.filter_sublist.map _)),
        fun r hr => (List.mem_filter.mp (hp.mem_iff.mp hr)).1⟩

theorem movesStores_setPass (slot kind : Byte) (stepDown allowance : Word) :
    MovesStores (.setPass slot kind stepDown allowance) := by
  refine fun _ => ⟨_, rfl, .onCopy _ _ fun k v => ?_⟩
  dsimp only
  split
  · exact .answered v _ _ _
  · split
    · exact .answered v _ _ _
    · next kd _ =>
      have h (p : Pass) (c : AnswerCode) (d : List Byte) :
          StoresMove v ((v.modifyCopy k fun c => c.setPass p).answer .plan c d) :=
        ((StoresMove.refl v).modifyCopy k (.of_queue rfl id id)).answer _ _ _
      split
      · exact (h _ _ _).trans (.withdrawAll _ k)
      · exact h _ _ _

theorem movesStores_startPass (slot : Byte) : MovesStores (.startPass slot) := by
  refine fun _ => ⟨_, rfl, .onCopy _ _ fun k v => ?_⟩
  dsimp only
  split
  · exact .answered v _ _ _
  · split
    · exact .answered v _ _ _
    · exact ((StoresMove.refl v).modifyCopy k (.of_queue rfl (by simp) id)).answer _ _ _

theorem movesStores_pauseCopy (slot : Byte) : MovesStores (.pauseCopy slot) := by
  refine fun _ => ⟨_, rfl, .onCopy _ _ fun k v => ?_⟩
  split
  · exact .answered v _ _ _
  · exact ((StoresMove.refl v).modifyCopy k (.of_queue rfl (by simp) id)).answer _ _ _

theorem movesStores_resumeCopy (slot : Byte) : MovesStores (.resumeCopy slot) := by
  refine fun _ => ⟨_, rfl, .onCopy _ _ fun k v => ?_⟩
  dsimp only
  split
  · exact .answered v _ _ _
  · split
    · exact ((StoresMove.refl v).completePass k).answer _ _ _
    · exact (((StoresMove.refl v).modifyCopy k (.of_queue rfl (by simp) id)).answer _ _ _).handOn _

/-- The strips of a copy after several have left it. -/
theorem State.foldl_leave_queue (s : State) (k : CopySlot) (l : List Strip) :
    ((l.foldl (fun v t => v.leave k t false) s).copy k).queue =
      (s.copy k).queue.map fun u => if u.index ∈ l.map Strip.index then u.released else u := by
  induction l generalizing s with
  | nil => simp
  | cons t l ih =>
    rw [List.foldl_cons, ih, leave_copy_same, Copy.updateStrip, List.map_map]
    refine List.map_congr_left fun u _ => ?_
    simp only [Function.comp_apply, List.map_cons, List.mem_cons]
    by_cases h : u.index = t.index
    · simp only [h, if_true, true_or]
      split <;> rfl
    · simp only [h, if_false, false_or]

/-- A copy freed: every strip that was held has left, so none has a footprint (R40). -/
theorem StoresMove.freeCopy (s : State) (k : CopySlot) : StoresMove s (s.freeCopy k) := by
  unfold State.freeCopy
  dsimp only
  have hmem := s.foldl_leave_queue k ((s.copy k).queue.filter fun t => decide (t.state ≠ .planned))
  have hleft : StoresMove s (((s.copy k).queue.filter fun t => decide (t.state ≠ .planned)).foldl
      (fun v t => v.leave k t false) s) :=
    .leaves (k := k) _ (fun v r live => (StoresMove.refl v).next (.left v k r false live))
      (fun v r => .inr (v.leave_copy_same k r false)) _ (.refl s) fun hn =>
      ⟨hn.sublist (List.filter_sublist.map _), fun r hr => (List.mem_filter.mp hr).1⟩
  refine StoresMove.same (t := State.setCopy _ k Copy.free) (hleft.setCopy k (.of_empty rfl rfl ?_)) rfl rfl rfl
  rintro ⟨-, hpl, -⟩ u hu
  have hu' := hu
  rw [hmem] at hu'
  obtain ⟨v, hv, rfl⟩ := List.mem_map.mp hu'
  by_cases hi : v.index ∈ ((s.copy k).queue.filter fun t => decide (t.state ≠ .planned)).map Strip.index
  · rw [if_pos hi]; rfl
  · refine hpl _ hu ?_
    rw [if_neg hi]
    by_contra hs
    exact hi (List.mem_map_of_mem (List.mem_filter.mpr ⟨hv, by simpa using hs⟩))

theorem movesStores_closeCopy (slot : Byte) : MovesStores (.closeCopy slot) := by
  refine fun _ => ⟨_, rfl, .onCopy _ _ fun k v => ?_⟩
  dsimp only
  split
  · exact .answered v _ _ _
  · split
    · exact .answered v _ _ _
    · have h := (StoresMove.freeCopy v k).answer .plan .ok []
      split
      · exact h.grantTest
      · exact h

theorem movesStores_bindSpindle (spindle slot : Byte) : MovesStores (.bindSpindle spindle slot) := by
  refine fun _ => ⟨_, rfl, .request _ _ fun v => ?_⟩
  split
  · split
    · exact .answered v _ _ _
    · split
      · exact .answered v _ _ _
      · exact ((StoresMove.refl v).modifySpindle _ _).answer _ _ _
  · exact .answered v _ _ _

theorem StoresMove.fenceForUnbind (s : State) (n : SpindleId) : StoresMove s (s.fenceForUnbind n) := by
  unfold State.fenceForUnbind
  dsimp only
  split
  · exact .refl s
  · exact (((StoresMove.refl s).fenceAll n _).latchSpindle n _).latchPlan _

theorem movesStores_unbindSpindle (spindle : Byte) : MovesStores (.unbindSpindle spindle) := by
  refine fun _ => ⟨_, rfl, .request _ _ fun v => ?_⟩
  split
  · exact .answered v _ _ _
  · exact ((StoresMove.fenceForUnbind v _).modifySpindle _ _).answer _ _ _

theorem movesStores_readFloors (slot : Byte) (cy c0 : Word) (count : Byte) :
    MovesStores (.readFloors slot cy c0 count) := by
  refine fun _ => ⟨_, rfl, .onCopy _ _ fun k v => ?_⟩
  dsimp only
  split
  · exact .answered v _ _ _
  · split
    · exact .answered v _ _ _
    · exact .answered v _ _ _

theorem movesStores_readCopy (slot zero : Byte) : MovesStores (.readCopy slot zero) := by
  refine fun _ => ⟨_, rfl, .onCopy _ _ fun k v => .answer ?_ _ _ _⟩
  split
  · exact (StoresMove.refl v).modifyCopy k (.of_queue rfl id id)
  · exact .refl v

/-! ### Plans -/

theorem StoresMove.afterLoad {s t : State} (h : StoresMove s t) (k : CopySlot) (accepted : Nat) (closed : Bool) :
    StoresMove s (t.afterLoad k accepted closed) := by
  have ht : StoresMove s (if closed then t.testPass k else t) := by
    split
    · exact h.testPass k
    · exact h
  unfold State.afterLoad
  dsimp only
  split
  · split
    · exact ht.handOn _
    · exact ht
  · exact h

theorem movesStores_loadPlan (slot : Byte) (ds : List Descriptor) : MovesStores (.loadPlan slot ds) := by
  refine fun _ => ⟨_, rfl, ?_⟩
  split
  · exact .request _ _ fun v => .answered v _ _ _
  · refine .onCopy _ _ fun k v => ?_
    dsimp only
    split
    · exact .answered v _ _ _
    · next hs =>
      split
      · exact .answered v _ _ _
      · split
        · exact .answered v _ _ _
        · obtain ⟨hf, -⟩ := takeDescriptors_follows (v.copy k) ds (not_or.mp hs)
          refine .afterLoad (.answer (.setCopy (.refl v) k (hf.trans ?_)) _ _ _) k _ _
          exact .of_queue rfl id id

theorem movesStores_clearPlan (slot : Byte) : MovesStores (.clearPlan slot) := by
  refine fun _ => ⟨_, rfl, .onCopy _ _ fun k v => ?_⟩
  dsimp only
  split
  · exact .answered v _ _ _
  · refine .answer (.setCopy (.refl v) k ?_) _ _ _
    exact .of_filter rfl (fun ⟨_, hpl, _⟩ t ht hp => hpl t ht (by simpa using hp)) rfl id

theorem movesStores_readStrip (slot selector : Byte) (value : Word) : MovesStores (.readStrip slot selector value) := by
  refine fun _ => ⟨_, rfl, .onCopy _ _ fun k v => ?_⟩
  split
  · exact .answered v _ _ _
  · split
    · exact .answered v _ _ _
    · dsimp only
      split
      · exact .answered v _ _ _
      · split
        · exact .answered v _ _ _
        · exact .answered v _ _ _

/-! ### Issue, engine and queues -/

theorem StoresMove.waitForScan (s : State) (n : SpindleId) (k : CopySlot) (key : TileKey) :
    StoresMove s (s.waitForScan n k key) := by
  have h : StoresMove s (s.offerWanted key) := by
    unfold State.offerWanted
    split
    · exact .refl s
    · exact ((StoresMove.refl s).wanted (some key)).latchScan _
  unfold State.waitForScan State.scanHold
  refine .answer ?_ _ _ _
  split
  · exact h
  · exact h.setHold n _ _

theorem StoresMove.noStrip (s : State) (n : SpindleId) (k : CopySlot) : StoresMove s (s.noStrip n k) := by
  unfold State.noStrip
  split
  · exact .answered s _ _ _
  · split
    · exact .answered s _ _ _
    · split
      · exact .answered s _ _ _
      · exact .waitForScan s n k _

theorem StoresMove.takeFrom (s : State) (n : SpindleId) (k : CopySlot) : StoresMove s (s.takeFrom n k) := by
  unfold State.takeFrom
  split
  · next t ht =>
    refine .grantTest (.next ((StoresMove.refl s).answer _ _ _) (.issued _ n k t ?_))
    exact ht
  · exact .noStrip s n k

theorem movesStores_takeStrip (n : SpindleId) : MovesStores (.takeStrip n) := by
  refine fun _ => ⟨_, rfl, .request _ _ fun v => ?_⟩
  dsimp only
  split
  · exact .answered v _ _ _
  · split
    · exact .answered v _ _ _
    · split
      · exact .answered v _ _ _
      · split
        · exact .answered v _ _ _
        · exact .takeFrom v n _
    · exact .answered v _ _ _
    · exact .answered v _ _ _
    · exact .answered v _ _ _

theorem movesStores_setPrefetch (n : SpindleId) (threshold : Word) : MovesStores (.setPrefetch n threshold) :=
  fun _ => ⟨_, rfl, .request _ _ fun v => (((StoresMove.refl v).modifySpindle n _).answer _ _ _).handOn _⟩

theorem StoresMove.placeCell (s : State) (c : Computation) (g : Geometry) : StoresMove s (s.placeCell c g) := by
  unfold State.placeCell
  dsimp only
  have h (f : Copy → Counters) : StoresMove s (s.modifyCopy c.key.copy fun cp => { cp with counters := f cp }) :=
    (StoresMove.refl s).modifyCopy _ (.of_queue rfl id id)
  have h1 := h fun cp => cp.counters.countCell (s.computeTarget c g.row)
  refine .setEngine ?_ _
  split
  · exact (h1.modifySpindle _ _).latchSpindle _ _
  · exact h1.modifySpindle _ _

theorem movesStores_computeCell : MovesStores .computeCell := by
  refine fun s => ⟨_, rfl, ?_⟩
  split
  · exact .refl s
  · next c _ =>
    split
    · exact .refl s
    · next t _ =>
      have h := StoresMove.placeCell s c t.geometry
      dsimp only
      split
      · exact (h.modifySpindle _ _).handOn _
      · exact h

theorem movesStores_drawTargets (n : SpindleId) (count : Byte) : MovesStores (.drawTargets n count) := by
  refine fun _ => ⟨_, rfl, .request _ _ fun v => ?_⟩
  split
  · exact .answered v _ _ _
  · have h (x : Nat) (c : AnswerCode) (d : List Byte) :
        StoresMove v ((v.modifySpindle n fun sp => { sp with readPos := sp.readPos + x }).answer (.spindle n) c d) :=
      ((StoresMove.refl v).modifySpindle n _).answer _ _ _
    dsimp only
    split
    · exact h _ _ _
    · exact ((h _ _ _).restartLeases _).handOn _

theorem movesStores_rewindStrip (n : SpindleId) : MovesStores (.rewindStrip n) := by
  refine fun _ => ⟨_, rfl, .request _ _ fun v => ?_⟩
  split
  · exact .answered v _ _ _
  · split
    · exact (((StoresMove.refl v).modifySpindle n _).restartLeases _).answer _ _ _
    · exact .answered v _ _ _

theorem movesStores_renew (n : SpindleId) : MovesStores (.renew n) :=
  fun _ => ⟨_, rfl, .request _ _ fun v => ((StoresMove.refl v).restartLeases _).answer _ _ _⟩

/-! ### Fences and holds -/

theorem StoresMove.releaseStrip (s : State) (k : CopySlot) (t : Strip) (action : FenceAction)
    (ht : t ∈ (s.copy k).queue) : StoresMove s (s.releaseStrip k t action) := by
  have hl : StoresMove s (s.leaveAndGrant k t) := (StoresMove.refl s).leaveAndGrant k t ht
  unfold State.releaseStrip
  refine .handOn (.answer ?_ _ _ _) _
  cases action with
  | requeue =>
    refine hl.modifyCopy k ?_
    exact Copy.requeueStrip_follows _ _ fun _ => ⟨rfl, rfl, id⟩
  | discard => exact (hl.removeLeft (s.leaveAndGrant_copies k t)).testPass k

theorem movesStores_releaseFence (slot : Byte) (index : Word) (action : Byte) :
    MovesStores (.releaseFence slot index action) := by
  refine fun _ => ⟨_, rfl, .request _ _ fun v => ?_⟩
  split
  · split
    · exact .answered v _ _ _
    · dsimp only
      split
      · exact .answered v _ _ _
      · split
        · exact .answered v _ _ _
        · next t ht =>
          split
          · exact .answered v _ _ _
          · split
            · exact .answered v _ _ _
            · exact .releaseStrip v _ t _ (Copy.strip?_some ht).1
  · exact .answered v _ _ _

theorem movesStores_holdSpindle (spindle : Byte) (time : Word) : MovesStores (.holdSpindle spindle time) := by
  refine fun _ => ⟨_, rfl, .request _ _ fun v => ?_⟩
  split
  · exact .answered v _ _ _
  · split
    · exact ((StoresMove.refl v).setHold _ _ _).answer _ _ _
    · split
      · exact (((StoresMove.refl v).endHold _).answer _ _ _).handOn _
      · exact .answered v _ _ _

/-! ### Cut reports -/

theorem movesStores_reportCut (n : SpindleId) (slot : Byte) (index : Word) (issue : Byte) (floors : List Depth) :
    MovesStores (.reportCut n slot index issue floors) := by
  refine fun _ => ⟨_, rfl, .request _ _ fun v => ?_⟩
  dsimp only
  split
  · exact (StoresMove.refl v).modifySpindle n _
  · exact (StoresMove.refl v).decideReport n _

theorem StoresMove.mergeOne (s : State) (n : SpindleId) (m : Merge) (r : Nat) : StoresMove s (s.mergeOne n m r) := by
  unfold State.mergeOne
  refine .modifySpindle (.setCopy (.refl s) _ ?_) n _
  exact .of_queue rfl id fun h => Cells.canonical_write h _ _

theorem StoresMove.settle {s t : State} (h : StoresMove s t) (k : CopySlot) (r : Strip) (o : MergeOutcome)
    (hr : r ∈ (t.copy k).queue) : StoresMove s (t.settle k r o) := by
  have hl : StoresMove s (t.leave k r true) := h.next (.left t k r true fun _ => hr)
  cases o with
  | none => exact h
  | removed => exact (hl.removeLeft rfl).testPass k
  | requeued retry =>
    refine hl.modifyCopy k (f := fun c => c.requeueStrip r.index fun u => { u with retry := retry }) ?_
    exact Copy.requeueStrip_follows _ _ fun _ => ⟨rfl, rfl, id⟩
  | stuck =>
    refine ((hl.modifyCopy k ((Copy.removeStrip_follows _ _ fun u hu hi => ?_).trans
      (.of_queue rfl id id))).latchPlan _).testPass k
    exact State.leave_footprint hu hi

theorem StoresMove.settleMerge {s t : State} (h : StoresMove s t) (m : Merge) : StoresMove s (t.settleMerge m) := by
  unfold State.settleMerge
  split
  · next r hr =>
    refine h.settle _ r _ ?_
    unfold State.mergedStrip at hr
    split at hr
    · cases hr
    · exact (Copy.strip?_some hr).1
  · exact h

theorem StoresMove.mergeEvents {s t : State} (h : StoresMove s t) (k : CopySlot) (m : Merge) :
    StoresMove s (t.mergeEvents k m) := by
  have hlatch {v : State} (hv : StoresMove s v) (c : Prop) [Decidable c] (l : PlanLatch) :
      StoresMove s (if c then v.latchPlan l else v) := by
    split
    · exact hv.latchPlan l
    · exact hv
  unfold State.mergeEvents
  refine hlatch ?_ _ _
  have h2 := hlatch (hlatch h (1 ≤ m.overcut) .overcut) (1 ≤ m.spoil) .spoil
  split
  · exact h2.modifyCopy k (.of_queue rfl (by simp) id)
  · exact h2

theorem StoresMove.completeMerge {s t : State} (h : StoresMove s t) (n : SpindleId) (m : Merge) :
    StoresMove s (t.completeMerge n m) := by
  have h1 := (h.modifyCopy m.key.copy (f := fun c => { c with counters := c.counters.countMerge m })
    (.of_queue rfl id id)).modifySpindle n fun sp => { sp with merge := none }
  have h3 := (h1.settleMerge m).mergeEvents m.key.copy m
  unfold State.completeMerge State.answerMerge
  refine .handOn ?_ _
  split
  · exact h3.answer _ _ _
  · exact h3

theorem movesStores_mergeCell (n : SpindleId) : MovesStores (.mergeCell n) := by
  refine fun s => ⟨_, rfl, ?_⟩
  split
  · exact .refl s
  · next m _ =>
    split
    · exact .refl s
    · next r _ =>
      have h := StoresMove.mergeOne s n m r
      dsimp only
      split
      · split
        · exact h.completeMerge n _
        · exact h
      · exact h

/-- Every command moves the stores by the changes of `StoreChange` alone. -/
theorem movesStores (i : Instr) : MovesStores i := by
  cases i with
  | fetch p crcGood clocked => exact movesStores_fetch p crcGood clocked
  | statusPoll p phase => exact movesStores_statusPoll p phase
  | status p => exact movesStores_status p
  | badFrame p flaw => exact movesStores_badFrame p flaw
  | clearEvents p mask => exact movesStores_clearEvents p mask
  | setAttention p mask term => exact movesStores_setAttention p mask term
  | portReset p => exact movesStores_portReset p
  | warmReset => exact movesStores_warmReset
  | powerOn resetHigh => exact movesStores_powerOn resetHigh
  | resetPin periods => exact movesStores_resetPin periods
  | resetRelease => exact movesStores_resetRelease
  | millisecondTick n => exact movesStores_millisecondTick n
  | leaseExpiry n => exact movesStores_leaseExpiry n
  | holdCountdownEnd n => exact movesStores_holdCountdownEnd n
  | openTile tx ty => exact movesStores_openTile tx ty
  | rescanPreloadCompletion => exact movesStores_rescanPreloadCompletion
  | putSamples tx ty offset samples => exact movesStores_putSamples tx ty offset samples
  | viewStaging tx ty offset count => exact movesStores_viewStaging tx ty offset count
  | sealTile tx ty crc => exact movesStores_sealTile tx ty crc
  | sealCompletion => exact movesStores_sealCompletion
  | dropTile tx ty => exact movesStores_dropTile tx ty
  | defineRelief mw mh => exact movesStores_defineRelief mw mh
  | readRelief iy ix0 count => exact movesStores_readRelief iy ix0 count
  | defineCopy args => exact movesStores_defineCopy args
  | clearCompletion slot => exact movesStores_clearCompletion slot
  | setPass slot kind stepDown allowance => exact movesStores_setPass slot kind stepDown allowance
  | startPass slot => exact movesStores_startPass slot
  | pauseCopy slot => exact movesStores_pauseCopy slot
  | resumeCopy slot => exact movesStores_resumeCopy slot
  | closeCopy slot => exact movesStores_closeCopy slot
  | bindSpindle spindle slot => exact movesStores_bindSpindle spindle slot
  | unbindSpindle spindle => exact movesStores_unbindSpindle spindle
  | readFloors slot cy c0 count => exact movesStores_readFloors slot cy c0 count
  | readCopy slot zero => exact movesStores_readCopy slot zero
  | loadPlan slot ds => exact movesStores_loadPlan slot ds
  | clearPlan slot => exact movesStores_clearPlan slot
  | readStrip slot selector value => exact movesStores_readStrip slot selector value
  | takeStrip n => exact movesStores_takeStrip n
  | setPrefetch n threshold => exact movesStores_setPrefetch n threshold
  | computeCell => exact movesStores_computeCell
  | drawTargets n count => exact movesStores_drawTargets n count
  | rewindStrip n => exact movesStores_rewindStrip n
  | renew n => exact movesStores_renew n
  | releaseFence slot index action => exact movesStores_releaseFence slot index action
  | holdSpindle spindle time => exact movesStores_holdSpindle spindle time
  | reportCut n slot index issue floors => exact movesStores_reportCut n slot index issue floors
  | mergeCell n => exact movesStores_mergeCell n
  | postOrder spindle content => exact movesStores_postOrder spindle content
  | postNote n content => exact movesStores_postNote n content
  | readOrder n => exact movesStores_readOrder n
  | readNote spindle => exact movesStores_readNote spindle

/-- What every change of the stores keeps, every step keeps, if it looks at nothing but the stores. -/
theorem step_keeps_of_storeChange {P : State → Prop} (change : ∀ s t, StoreChange s t → P s → P t) (s t : State)
    (hs : P s) (h : step s = .next t) : P t := by
  unfold step at h
  split at h
  · cases h
    exact hs
  · next i rest _ =>
    obtain ⟨u, hu, hm⟩ := movesStores i { s with pending := rest }
    obtain rfl : u = t := by simpa using hu.symm.trans h
    have h0 : StoresMove s { s with pending := rest } := (StoresMove.refl s).same rfl rfl rfl
    exact (h0.trans hm).induct change hs

end Sys2Proof.Machine

namespace Sys2Proof.Machine

/-! ## The relief after each change, read by key and by place -/

theorem Relief.stateAt_congr {r r' : Relief} (hw : r'.mw = r.mw) (hh : r'.mh = r.mh) (ht : r'.tiles = r.tiles)
    (key : TileKey) : r'.stateAt key = r.stateAt key := by
  rw [stateAt, stateAt, tile?_congr hw hh ht]

theorem Relief.tile?_completeSeal (r : Relief) (x : Slot) (key : TileKey) :
    (r.completeSeal x).tile? key = (r.modifyTile x.key (Tile.sealWith x.samples)).tile? key :=
  tile?_congr (r := r.modifyTile x.key (Tile.sealWith x.samples)) rfl rfl rfl key

/-- At the completion of a seal the slot's tile is SEALED (R16). -/
theorem Relief.stateAt_completeSeal (r : Relief) (x : Slot) (key : TileKey) :
    (r.completeSeal x).stateAt key = if key = x.key then (r.tile? x.key).map fun _ => .sealed else r.stateAt key := by
  rw [stateAt, tile?_completeSeal, ← stateAt, stateAt_modifyTile]
  rfl

/-- The relief after a slot is given up: its tile back in the state it had before it was opened (R18, R19). -/
def Relief.giveUp (r : Relief) (key : TileKey) : Relief :=
  r.modifyTile key fun t => { t with state := returnState t.state }

/-- A free slot freed changes nothing; of a slot in use the tile is given up, and perhaps the wanted tile is no more. -/
theorem State.freeStaging_cases (s : State) (i : Fin 4) :
    s.staging.get i = none ∧ s.freeStaging i = s ∨
      ∃ x r, s.staging.get i = some x ∧ s.freeStaging i = (s.setRelief r).setStaging i none ∧
        r.mw = (s.relief.giveUp x.key).mw ∧ r.mh = (s.relief.giveUp x.key).mh ∧
        r.tiles = (s.relief.giveUp x.key).tiles := by
  unfold freeStaging
  split
  · next x hx =>
    refine .inr ⟨x, (s.relief.giveUp x.key).clearWanted x.key, hx, rfl, ?_⟩
    unfold Relief.clearWanted
    split <;> exact ⟨rfl, rfl, rfl⟩
  · next hx => exact .inl ⟨hx, rfl⟩

theorem Relief.stateAt_warmReset (r : Relief) (key : TileKey) :
    r.warmReset.stateAt key = (r.stateAt key).map returnState := by
  unfold stateAt
  show (if key.tx < r.tw ∧ key.ty < r.th then (r.tiles.map _)[r.tileIndex key]? else none).map _ = _
  unfold tile?
  split
  · simp [Function.comp_def]
  · rfl

theorem Relief.mem_define {mw mh : Nat} {t : Tile} (h : t ∈ (Relief.define mw mh).tiles) : t = Tile.fresh :=
  (List.mem_replicate.mp h).2

theorem Relief.mem_of_tile? {r : Relief} {key : TileKey} {t : Tile} (h : r.tile? key = some t) : t ∈ r.tiles :=
  List.mem_of_getElem? (tile?_some h).1

/-! ## Tile states and staging slots (R3, R7) -/

/-- The state of a tile while a slot of a mode holds its key (R7). -/
def slotState : SlotMode → TileState
  | .first => .staging
  | .rescan => .rescanning

/-- `SlotsAgree`, said of the staging slots and of the tile states by key. -/
def SlotsMatch (slots : Four (Option Slot)) (stateAt : TileKey → Option TileState) : Prop :=
  (∀ i j x y, slots.get i = some x → slots.get j = some y → x.key = y.key → i = j) ∧
    (∀ i x, slots.get i = some x → stateAt x.key = some (slotState x.mode)) ∧
    ∀ key mode, stateAt key = some (slotState mode) → ∃ i x, slots.get i = some x ∧ x.key = key

theorem slotsAgree_iff (s : State) : SlotsAgree s ↔ SlotsMatch s.staging s.relief.stateAt := by
  refine and_congr_right fun _ => and_congr ?_ ?_
  · refine forall₃_congr fun i x _ => ?_
    cases hm : x.mode <;> simp [Relief.stateAt, slotState]
  · constructor
    · intro h key mode hm
      obtain ⟨t, ht, hs⟩ := Option.map_eq_some_iff.mp hm
      refine h key t ht ?_
      cases mode
      · exact .inl hs
      · exact .inr hs
    · intro h key t ht hs
      have hst := Relief.stateAt_of_tile? ht
      rcases hs with hs | hs
      · exact h key .first (by rw [hst, hs]; rfl)
      · exact h key .rescan (by rw [hst, hs]; rfl)

section
variable {slots : Four (Option Slot)} {f g : TileKey → Option TileState}

/-- A slot emptied, its tile put into a state that no slot goes with. -/
theorem SlotsMatch.empty (h : SlotsMatch slots f) {i : Fin 4} {x : Slot} (hx : slots.get i = some x)
    (hout : ∀ mode, g x.key ≠ some (slotState mode)) (hrest : ∀ key, key ≠ x.key → g key = f key) :
    SlotsMatch (slots.set i none) g := by
  obtain ⟨hinj, hslot, htile⟩ := h
  have used {j : Fin 4} {y : Slot} (hy : (slots.set i none).get j = some y) : j ≠ i ∧ slots.get j = some y := by
    by_cases hj : j = i
    · subst hj
      simp at hy
    · exact ⟨hj, by simpa [hj] using hy⟩
  refine ⟨fun j k y z hy hz => hinj j k y z (used hy).2 (used hz).2, fun j y hy => ?_, fun key mode hk => ?_⟩
  · obtain ⟨hj, hy⟩ := used hy
    rw [hrest _ fun he => hj (hinj j i y x hy hx he)]
    exact hslot j y hy
  · have hne : key ≠ x.key := fun he => hout mode (he ▸ hk)
    obtain ⟨j, y, hy, rfl⟩ := htile key mode (hrest key hne ▸ hk)
    have hj : j ≠ i := by
      rintro rfl
      rw [hx] at hy
      exact hne (Option.some.inj hy ▸ rfl)
    exact ⟨j, y, by simpa [hj] using hy, rfl⟩

/-- A free slot filled for a tile that no slot goes with, the tile put into the state of the slot's mode. -/
theorem SlotsMatch.fill (h : SlotsMatch slots f) {i : Fin 4} {x : Slot} (hi : slots.get i = none)
    (hin : g x.key = some (slotState x.mode)) (hout : ∀ mode, f x.key ≠ some (slotState mode))
    (hrest : ∀ key, key ≠ x.key → g key = f key) : SlotsMatch (slots.set i (some x)) g := by
  obtain ⟨hinj, hslot, htile⟩ := h
  have used {j : Fin 4} {y : Slot} (hy : (slots.set i (some x)).get j = some y) :
      j = i ∧ y = x ∨ j ≠ i ∧ slots.get j = some y ∧ y.key ≠ x.key := by
    by_cases hj : j = i
    · subst hj
      exact .inl ⟨rfl, by simpa using hy.symm⟩
    · have hy' : slots.get j = some y := by simpa [hj] using hy
      exact .inr ⟨hj, hy', fun he => hout y.mode (he ▸ hslot j y hy')⟩
  refine ⟨fun j k y z hy hz he => ?_, fun j y hy => ?_, fun key mode hk => ?_⟩
  · obtain ⟨rfl, rfl⟩ | ⟨-, hy, hyx⟩ := used hy <;> obtain ⟨rfl, rfl⟩ | ⟨-, hz, hzx⟩ := used hz
    · rfl
    · exact absurd he.symm hzx
    · exact absurd he hyx
    · exact hinj j k y z hy hz he
  · obtain ⟨rfl, rfl⟩ | ⟨-, hy, hyx⟩ := used hy
    · exact hin
    · rw [hrest _ hyx]
      exact hslot j y hy
  · by_cases he : key = x.key
    · exact ⟨i, x, by simp, he.symm⟩
    · obtain ⟨j, y, hy, rfl⟩ := htile key mode (hrest key he ▸ hk)
      have hj : j ≠ i := by
        rintro rfl
        rw [hi] at hy
        cases hy
      exact ⟨j, y, by simpa [hj] using hy, rfl⟩

/-- What a slot holds beside key and mode changed. -/
theorem SlotsMatch.refill (h : SlotsMatch slots f) {i : Fin 4} {x y : Slot} (hx : slots.get i = some x)
    (hk : y.key = x.key) (hm : y.mode = x.mode) : SlotsMatch (slots.set i (some y)) f := by
  obtain ⟨hinj, hslot, htile⟩ := h
  have used {j : Fin 4} {z : Slot} (hz : (slots.set i (some y)).get j = some z) :
      ∃ w, slots.get j = some w ∧ z.key = w.key ∧ z.mode = w.mode := by
    by_cases hj : j = i
    · subst hj
      obtain rfl : y = z := by simpa using hz
      exact ⟨x, hx, hk, hm⟩
    · exact ⟨z, by simpa [hj] using hz, rfl, rfl⟩
  refine ⟨fun j k z w hz hw he => ?_, fun j z hz => ?_, fun key mode hst => ?_⟩
  · obtain ⟨z', hz', ez, -⟩ := used hz
    obtain ⟨w', hw', ew, -⟩ := used hw
    exact hinj j k z' w' hz' hw' (by rw [← ez, ← ew, he])
  · obtain ⟨z', hz', ek, em⟩ := used hz
    rw [ek, em]
    exact hslot j z' hz'
  · obtain ⟨j, z, hz, rfl⟩ := htile key mode hst
    by_cases hj : j = i
    · subst hj
      obtain rfl : x = z := Option.some.inj (hx.symm.trans hz)
      exact ⟨j, y, by simp, hk⟩
    · exact ⟨j, z, by simpa [hj] using hz, rfl⟩

/-- No slot in use and no tile in a state that a slot goes with. -/
theorem SlotsMatch.of_unused (hs : ∀ i, slots.get i = none) (hf : ∀ key mode, f key ≠ some (slotState mode)) :
    SlotsMatch slots f :=
  ⟨fun i _ x _ hx => by simp [hs i] at hx, fun i x hx => by simp [hs i] at hx,
    fun key mode hk => absurd hk (hf key mode)⟩

end

theorem slotState_ne_returnState (mode : SlotMode) (st : TileState) : returnState st ≠ slotState mode := by
  cases mode <;> cases st <;> decide

theorem SlotsAgree.change {s t : State} (c : StoreChange s t) (h : SlotsAgree s) : SlotsAgree t := by
  rw [slotsAgree_iff] at h ⊢
  cases c with
  | kept _ mw mh tiles staging _ =>
    rw [staging, funext (Relief.stateAt_congr mw mh tiles)]
    exact h
  | issued n k u _ =>
    rw [State.issueStrip_staging, State.issueStrip, State.modifySpindle_relief, State.setRelief_relief,
      funext (Relief.stateAt_adjustDependents _ _ _)]
    exact h
  | left k u record _ =>
    rw [State.leave_staging, State.leave_relief, State.releaseTiles]
    split
    · rw [State.setRelief_relief, funext (Relief.stateAt_adjustDependents _ _ _)]
      exact h
    · exact h
  | claimed i key mode st u free tile opens =>
    refine h.fill free (x := openedSlot key mode) ?_ ?_ fun k hk => ?_
    · show (s.relief.modifyTile key _).stateAt key = some (slotState mode)
      rw [Relief.stateAt_modifyTile, if_pos rfl, tile]
      obtain ⟨rfl, rfl, -⟩ | ⟨rfl, rfl, -⟩ := opens <;> rfl
    · intro m
      show s.relief.stateAt key ≠ _
      rw [Relief.stateAt_of_tile? tile]
      obtain ⟨-, -, hu⟩ | ⟨-, -, hu, -⟩ := opens <;> rw [hu] <;> cases m <;> simp [slotState]
    · show (s.relief.modifyTile key _).stateAt k = s.relief.stateAt k
      rw [Relief.stateAt_modifyTile]
      exact if_neg hk
  | filled i x y used key mode _ => exact h.refill used key mode
  | sealed i x used =>
    refine h.empty used (fun m => ?_) fun k hk => ?_
    · show (s.relief.completeSeal x).stateAt x.key ≠ _
      rw [Relief.stateAt_completeSeal, if_pos rfl]
      cases s.relief.tile? x.key <;> cases m <;> simp [slotState]
    · show (s.relief.completeSeal x).stateAt k = _
      rw [Relief.stateAt_completeSeal, if_neg hk]
  | freed i =>
    obtain ⟨-, e⟩ | ⟨x, r, hx, e, hw, hh, ht⟩ := s.freeStaging_cases i <;> rw [e]
    · exact h
    · have hst (k : TileKey) : r.stateAt k = if k = x.key then
          (s.relief.tile? x.key).map fun t => returnState t.state else s.relief.stateAt k := by
        rw [Relief.stateAt_congr hw hh ht, Relief.giveUp, Relief.stateAt_modifyTile]
      refine h.empty hx (fun m => ?_) fun k hk => ?_
      · rw [State.setStaging_relief, State.setRelief_relief, hst, if_pos rfl]
        cases s.relief.tile? x.key <;> simp [slotState_ne_returnState]
      · rw [State.setStaging_relief, State.setRelief_relief, hst, if_neg hk]
  | defined mw mh unused =>
    refine .of_unused (State.unused_of_reliefInUse unused).2 fun key mode hk => ?_
    obtain ⟨t, ht, hs⟩ := Option.map_eq_some_iff.mp hk
    rw [Relief.mem_define (Relief.mem_of_tile? ht)] at hs
    cases mode <;> cases hs
  | warm =>
    refine .of_unused (Four.get_fill _) fun key mode hk => ?_
    obtain ⟨st, -, hs⟩ := Option.map_eq_some_iff.mp ((Relief.stateAt_warmReset _ _).symm.trans hk)
    exact slotState_ne_returnState _ _ hs
  | cleared _ relief staging _ =>
    rw [relief, staging]
    exact .of_unused (Four.get_fill _) fun key mode hk => by cases hk

/-- Settles O24: every change of the stores keeps slots and tile states in agreement. -/
theorem tileStatesFollowSlots : Obligations.TileStatesFollowSlots :=
  fun s t hs h => step_keeps_of_storeChange (fun _ _ => SlotsAgree.change) s t hs h

end Sys2Proof.Machine

namespace Sys2Proof.Machine

/-! ## Tiles with dependents are SEALED (R3, R6) -/

/-- One tile changed: where it had a dependent only while SEALED, it has one only while SEALED. -/
theorem CoveredSealed.modifyTile {r : Relief} (h : ∀ t ∈ r.tiles, 0 < t.dependents → t.state = .sealed)
    {key : TileKey} {f : Tile → Tile}
    (hf : ∀ t, r.tile? key = some t → (0 < t.dependents → t.state = .sealed) →
      0 < (f t).dependents → (f t).state = .sealed) :
    ∀ t ∈ (r.modifyTile key f).tiles, 0 < t.dependents → t.state = .sealed := by
  intro t ht
  obtain ht | ⟨u, hu, hk, rfl⟩ := Relief.mem_modifyTile ht
  · exact h t ht
  · exact hf u hk (h u hu)

theorem CoveredSealed.change {s t : State} (c : StoreChange s t) (h : CoveredSealed s) : CoveredSealed t := by
  unfold CoveredSealed at h ⊢
  cases c with
  | kept _ _ _ tiles _ _ =>
    rw [tiles]
    exact h
  | issued n k u found =>
    intro t ht hd
    obtain ht | ⟨i, v, hv, hc, rfl⟩ := Relief.mem_adjustDependents ht
    · exact h t ht hd
    · have hs : ((s.copy k).zoneFree n u && s.tilesSealed k u) = true := by simpa using List.find?_some found
      exact State.tilesSealed_covered (u := v) (Bool.and_eq_true_iff.mp hs).2 hv hc
  | left k u record _ =>
    rw [State.leave_relief, State.releaseTiles]
    split
    · intro t ht hd
      obtain ht | ⟨i, v, hv, -, rfl⟩ := Relief.mem_adjustDependents ht
      · exact h t ht hd
      · exact h v (List.mem_of_getElem? hv) (Nat.lt_of_lt_of_le hd (Nat.sub_le _ _))
    · exact h
  | claimed i key mode st u _ tile opens =>
    refine CoveredSealed.modifyTile h fun v hv hvs hd => absurd hd ?_
    rw [tile, Option.some.injEq] at hv
    subst hv
    obtain ⟨-, -, hu⟩ | ⟨-, -, -, hu⟩ := opens
    · intro hd
      rw [hvs hd] at hu
      cases hu
    · exact hu.symm ▸ Nat.lt_irrefl 0
  | filled i x y _ _ _ _ => exact h
  | sealed i x _ => exact CoveredSealed.modifyTile h fun _ _ _ _ => rfl
  | freed i =>
    obtain ⟨-, e⟩ | ⟨x, r, -, e, -, -, ht⟩ := s.freeStaging_cases i <;> rw [e]
    · exact h
    · rw [State.setStaging_relief, State.setRelief_relief, ht]
      refine CoveredSealed.modifyTile h fun v _ hvs hd => ?_
      show returnState v.state = .sealed
      rw [hvs hd]
      rfl
  | defined mw mh _ =>
    intro t ht hd
    rw [Relief.mem_define ht] at hd
    exact absurd hd (Nat.lt_irrefl 0)
  | warm =>
    intro t ht hd
    obtain ⟨u, hu, rfl⟩ := List.mem_map.mp ht
    show returnState u.state = .sealed
    rw [h u hu hd]
    rfl
  | cleared _ relief _ _ =>
    rw [relief]
    exact fun _ ht => absurd ht List.not_mem_nil

/-! ## Dependents counts are exact (R6) -/

/-- A strip changed in its place, or left where it is: its copy covers a tile as often as before, less the strip's
footprint before and more its footprint after. -/
theorem Copy.covering_updateStrip {c : Copy} {t : Strip} (f : Strip → Strip)
    (hn : (c.queue.map Strip.index).Nodup) (ht : t ∈ c.queue) (tx ty : Nat) :
    (c.updateStrip t.index f).covering tx ty + (t.covers tx ty).toNat =
      c.covering tx ty + ((f t).covers tx ty).toNat := by
  rw [covering_eq_countP, covering_eq_countP]
  obtain ⟨a, b, hq⟩ := List.append_of_mem ht
  rw [hq, List.map_append, List.map_cons] at hn
  rw [updateStrip, hq]
  obtain ⟨-, hb, hab⟩ := List.nodup_append.mp hn
  have same (l : List Strip) (hl : ∀ u ∈ l, u.index ≠ t.index) :
      (l.map fun u => if u.index = t.index then f u else u) = l :=
    (List.map_congr_left fun u hu => if_neg (hl u hu)).trans (List.map_id l)
  have ha : ∀ u ∈ a, u.index ≠ t.index := fun u hu => hab _ (List.mem_map_of_mem hu) _ (by simp)
  have hb : ∀ u ∈ b, u.index ≠ t.index := fun u hu he =>
    (List.nodup_cons.mp hb).1 (he ▸ List.mem_map_of_mem hu)
  simp only [List.map_append, List.map_cons, same a ha, same b hb, if_true, List.countP_append, List.countP_cons]
  cases t.covers tx ty <;> cases (f t).covers tx ty <;> simp <;> omega

theorem State.covering_eq_sum (s : State) (tx ty : Nat) : s.covering tx ty = ∑ k, (s.copy k).covering tx ty := by
  simp [covering, allSix, Fin.sum_univ_six, Nat.add_assoc]

/-- One copy changed: the tiles are covered as often as before, less and more what that copy covers less and more. -/
theorem State.covering_of_copy {s t : State} {k : CopySlot} (h : ∀ j, j ≠ k → t.copy j = s.copy j) {a b : Nat}
    {tx ty : Nat} (hk : (t.copy k).covering tx ty + a = (s.copy k).covering tx ty + b) :
    t.covering tx ty + a = s.covering tx ty + b := by
  have hrest : ∑ j ∈ Finset.univ.erase k, (t.copy j).covering tx ty =
      ∑ j ∈ Finset.univ.erase k, (s.copy j).covering tx ty :=
    Finset.sum_congr rfl fun j hj => by rw [h j (Finset.ne_of_mem_erase hj)]
  rw [covering_eq_sum, covering_eq_sum, ← Finset.add_sum_erase _ _ (Finset.mem_univ k),
    ← Finset.add_sum_erase _ _ (Finset.mem_univ k), hrest]
  omega

theorem State.covering_congr {s t : State} {tx ty : Nat}
    (h : ∀ k, (t.copy k).covering tx ty = (s.copy k).covering tx ty) : t.covering tx ty = s.covering tx ty := by
  simp only [covering, h]

/-- The dependents counts and the copies changed so that each count stays that of the strips covering its tile. -/
theorem DependentsExact.of_dependentsAt {s t : State} (h : DependentsExact s) (htidy : ∀ k, (t.copy k).tidy)
    (hw : t.relief.tw = s.relief.tw)
    (hd : ∀ i d, t.relief.dependentsAt i = some d → ∃ e, s.relief.dependentsAt i = some e ∧
      (e = s.covering (i % s.relief.tw) (i / s.relief.tw) → d = t.covering (i % s.relief.tw) (i / s.relief.tw))) :
    DependentsExact t := by
  refine ⟨htidy, fun i u hu => ?_⟩
  obtain ⟨e, he, hde⟩ := hd i u.dependents (by rw [Relief.dependentsAt, hu, Option.map_some])
  obtain ⟨v, hv, rfl⟩ := Option.map_eq_some_iff.mp he
  rw [hw]
  exact hde (h.2 i v hv)

/-- No dependents count changed, and every copy follows. -/
theorem DependentsExact.of_follows {s t : State} (h : DependentsExact s) (hc : ∀ k, (s.copy k).Follows (t.copy k))
    (hw : t.relief.tw = s.relief.tw) (hd : ∀ i, t.relief.dependentsAt i = s.relief.dependentsAt i) :
    DependentsExact t := by
  refine h.of_dependentsAt (fun k => ((hc k).1 (h.1 k)).1) hw fun i d hi => ⟨d, hd i ▸ hi, fun e => ?_⟩
  rw [e]
  exact (State.covering_congr fun k => ((hc k).1 (h.1 k)).2 _ _).symm

/-- No dependents count and no copy changed. -/
theorem DependentsExact.of_copies {s t : State} (h : DependentsExact s) (hc : t.copies = s.copies)
    (hw : t.relief.tw = s.relief.tw) (hd : ∀ i, t.relief.dependentsAt i = s.relief.dependentsAt i) :
    DependentsExact t :=
  h.of_follows (fun k => by rw [State.copy, State.copy, hc]; exact .refl _) hw hd

theorem Relief.dependentsAt_congr {r r' : Relief} (h : r'.tiles = r.tiles) (i : Nat) :
    r'.dependentsAt i = r.dependentsAt i := by
  rw [dependentsAt, dependentsAt, h]

/-- The counts of the tiles a footprint covers changed. -/
theorem Relief.dependentsAt_adjustDependents (r : Relief) (fp : Footprint) (f : Nat → Nat) (i : Nat) :
    (r.adjustDependents fp f).dependentsAt i =
      (r.dependentsAt i).map fun d => if fp.covers (i % r.tw) (i / r.tw) then f d else d := by
  rw [dependentsAt, dependentsAt, getElem?_adjustDependents, Option.map_map, Option.map_map]
  congr 1
  funext t
  simp only [Function.comp_apply]
  split <;> rfl

/-- With nothing in any copy no tile is covered. -/
theorem State.covering_eq_zero {s : State} (h : ∀ k, (s.copy k).queue = []) (tx ty : Nat) : s.covering tx ty = 0 := by
  have h0 (k : CopySlot) : (s.copy k).covering tx ty = 0 := Copy.covering_eq_zero (by simp [h k]) tx ty
  simp [covering, allSix, h0]

/-- A strip changed in its place with the counts of the tiles it then covers. -/
theorem Copy.updateStrip_tidy {c : Copy} (h : c.tidy) (i : Nat) {f : Strip → Strip}
    (hi : ∀ t, (f t).index = t.index) (hf : ∀ t, (f t).state = .planned → (f t).footprint = none) :
    (c.updateStrip i f).tidy := by
  obtain ⟨hn, hpl, he⟩ := h
  refine ⟨by rwa [updateStrip_indices _ _ _ hi], fun t ht hs => ?_, fun hs => ?_⟩
  · obtain ⟨u, hu, rfl⟩ := List.mem_map.mp ht
    split at hs
    · next hu' => rw [if_pos hu']; exact hf u hs
    · next hu' => rw [if_neg hu']; exact hpl u hu hs
  · rw [updateStrip, he hs, List.map_nil]

/-- The issue of a PLANNED strip: one more strip covers the tiles of its footprint, whose counts rise (R92). -/
theorem DependentsExact.issueStrip {s : State} (h : DependentsExact s) (n : SpindleId) (k : CopySlot) {u : Strip}
    (hu : u ∈ (s.copy k).queue) (hpl : u.state = .planned) : DependentsExact (s.issueStrip n k u) := by
  have hcopy : (s.issueStrip n k u).copy k = (s.copy k).updateStrip u.index
      (Strip.issuedTo n (s.footprintOf k u) (s.copy k).leaseTime) := by
    simp [State.issueStrip]
  have hne (j : CopySlot) (hj : j ≠ k) : (s.issueStrip n k u).copy j = s.copy j := s.issueStrip_copy_ne n k j u hj
  have hrel : (s.issueStrip n k u).relief = s.relief.adjustDependents (s.footprintOf k u) (· + 1) := rfl
  refine h.of_dependentsAt (fun j => ?_) rfl fun i d hd => ?_
  · by_cases hj : j = k
    · subst hj
      rw [hcopy]
      exact Copy.updateStrip_tidy (h.1 j) _ (fun _ => rfl) nofun
    · rw [hne j hj]
      exact h.1 j
  · rw [hrel, Relief.dependentsAt_adjustDependents] at hd
    obtain ⟨e, he, rfl⟩ := Option.map_eq_some_iff.mp hd
    refine ⟨e, he, fun hec => ?_⟩
    have hcov := Copy.covering_updateStrip (Strip.issuedTo n (s.footprintOf k u) (s.copy k).leaseTime)
      (h.1 k).1 hu (i % s.relief.tw) (i / s.relief.tw)
    rw [← hcopy] at hcov
    have hsum := State.covering_of_copy hne hcov
    rw [Strip.covers_of_none ((h.1 k).2.1 u hu hpl)] at hsum
    have hfp : (Strip.issuedTo n (s.footprintOf k u) (s.copy k).leaseTime u).covers (i % s.relief.tw)
      (i / s.relief.tw) = (s.footprintOf k u).covers (i % s.relief.tw) (i / s.relief.tw) := rfl
    rw [hfp, ← hec] at hsum
    split
    · next hc => simpa [hc] using hsum.symm
    · next hc => simpa [hc] using hsum.symm

theorem State.releaseTiles_tw (s : State) (t : Strip) : (s.releaseTiles t).relief.tw = s.relief.tw := by
  unfold releaseTiles
  split <;> rfl

/-- The counts of the tiles under a strip lowered as it leaves (R6). -/
theorem State.dependentsAt_releaseTiles (s : State) (t : Strip) (i : Nat) :
    (s.releaseTiles t).relief.dependentsAt i = (s.relief.dependentsAt i).map fun d =>
      d - (t.covers (i % s.relief.tw) (i / s.relief.tw)).toNat := by
  unfold releaseTiles
  split
  · next fp hfp =>
    rw [setRelief_relief, Relief.dependentsAt_adjustDependents]
    congr 1
    funext d
    have : t.covers (i % s.relief.tw) (i / s.relief.tw) = fp.covers (i % s.relief.tw) (i / s.relief.tw) := by
      rw [Strip.covers, hfp]; rfl
    rw [this]
    split
    · next hc => rw [hc]; rfl
    · next hc => simp [hc]
  · next hfp => simp [Strip.covers_of_none hfp]

/-- A strip's leaving: one strip fewer covers the tiles of its footprint, whose counts fall (R77). -/
theorem DependentsExact.leave {s : State} (h : DependentsExact s) (k : CopySlot) {u : Strip} (record : Bool)
    (hu : u ∈ (s.copy k).queue) : DependentsExact (s.leave k u record) := by
  have hcopy := s.leave_copy_same k u record
  have hne (j : CopySlot) (hj : j ≠ k) := s.leave_copy_ne k j u record hj
  have hrel := s.leave_relief k u record
  refine h.of_dependentsAt (fun j => ?_) (by rw [hrel, State.releaseTiles_tw]) fun i d hd => ?_
  · by_cases hj : j = k
    · subst hj
      rw [hcopy]
      exact Copy.updateStrip_tidy (h.1 j) _ (fun _ => rfl) fun _ _ => rfl
    · rw [hne j hj]
      exact h.1 j
  · rw [hrel, State.dependentsAt_releaseTiles] at hd
    obtain ⟨e, he, rfl⟩ := Option.map_eq_some_iff.mp hd
    refine ⟨e, he, fun hec => ?_⟩
    have hcov := Copy.covering_updateStrip Strip.released (h.1 k).1 hu (i % s.relief.tw) (i / s.relief.tw)
    rw [← hcopy] at hcov
    have hsum := State.covering_of_copy hne hcov
    rw [Strip.covers_of_none (t := u.released) rfl, ← hec] at hsum
    simp only [Bool.toNat_false, Nat.add_zero] at hsum
    omega

theorem DependentsExact.change {s t : State} (c : StoreChange s t) (h : DependentsExact s) : DependentsExact t := by
  cases c with
  | kept _ mw _ tiles _ copies =>
    exact h.of_follows copies (by rw [Relief.tw, Relief.tw, mw]) (Relief.dependentsAt_congr tiles)
  | issued n k u found =>
    obtain ⟨hu, hpl⟩ := List.mem_filter.mp (List.mem_of_find?_eq_some found)
    exact h.issueStrip n k hu (by simpa using hpl)
  | left k u record live => exact h.leave k record (live (h.1 k).1)
  | claimed i key mode st u _ _ _ =>
    exact h.of_copies rfl (Relief.modifyTile_tw _ _ _) (Relief.dependentsAt_modifyTile _ _ _ fun _ => rfl)
  | filled i x y _ _ _ _ => exact h.of_copies rfl rfl fun _ => rfl
  | sealed i x _ =>
    exact h.of_copies rfl (Relief.modifyTile_tw s.relief x.key (Tile.sealWith x.samples))
      (Relief.dependentsAt_modifyTile s.relief x.key (Tile.sealWith x.samples) fun _ => rfl)
  | freed i =>
    obtain ⟨-, e⟩ | ⟨x, r, -, e, hw, -, ht⟩ := s.freeStaging_cases i <;> rw [e]
    · exact h
    · refine h.of_copies rfl ?_ fun j => (Relief.dependentsAt_congr ht j).trans ?_
      · show r.tw = s.relief.tw
        rw [Relief.tw, hw]
        exact Relief.modifyTile_tw _ _ _
      · exact Relief.dependentsAt_modifyTile s.relief x.key (fun t => { t with state := returnState t.state })
          (fun _ => rfl) j
  | defined mw mh unused =>
    refine ⟨h.1, fun i t ht => ?_⟩
    rw [Relief.mem_define (List.mem_of_getElem? ht)]
    refine (State.covering_eq_zero (fun k => ?_) _ _).symm
    exact (h.1 k).2.2 (.inl ((State.unused_of_reliefInUse unused).1 k))
  | warm =>
    refine h.of_copies rfl rfl fun i => ?_
    show ((s.relief.tiles.map _)[i]?).map _ = _
    rw [List.getElem?_map, Option.map_map]
    rfl
  | cleared _ relief _ copies =>
    refine ⟨fun k => ?_, fun i t ht => ?_⟩
    · rw [State.copy, copies, Six.get_fill]
      exact ⟨.nil, fun _ ht => absurd ht List.not_mem_nil, fun _ => rfl⟩
    · rw [relief] at ht
      exact absurd (List.mem_of_getElem? ht) List.not_mem_nil

/-- Settles O26: every change of the stores moves counts and footprints together. -/
theorem dependentsStayExact : Obligations.DependentsStayExact :=
  fun s t hs h => step_keeps_of_storeChange (fun _ _ => DependentsExact.change) s t hs h

/-- A copy with a strip that covers a tile covers it. -/
theorem State.covering_pos {s : State} {k : CopySlot} {t : Strip} {tx ty : Nat} (ht : t ∈ (s.copy k).queue)
    (hc : t.covers tx ty = true) : 0 < s.covering tx ty := by
  have hk : 0 < (s.copy k).covering tx ty := by
    rw [Copy.covering_eq_countP]
    exact List.countP_pos_iff.mpr ⟨t, ht, hc⟩
  exact List.sum_pos_iff_exists_pos_nat.mpr ⟨_, List.mem_map_of_mem (mem_allSix k), hk⟩

/-- A tile under a held strip has a dependent, so it is SEALED (R6). -/
theorem DependentsExact.heldTilesSealed {s : State} (h : DependentsExact s) (hs : CoveredSealed s) :
    HeldTilesSealed s := by
  intro k t ht _ fp hfp key u hc hu
  obtain ⟨hi, hx, hy⟩ := Relief.tile?_some hu
  refine hs u (List.mem_of_getElem? hi) ?_
  rw [h.2 _ u hi, hx, hy]
  exact State.covering_pos ht (by rw [Strip.covers, hfp]; exact hc)

/-- Settles O25: no tile with a dependent is opened, and an issue passes the tile test; the strip over a tile counts
among its dependents. -/
theorem coveredTilesStaySealed : Obligations.CoveredTilesStaySealed :=
  ⟨fun s t hs h => step_keeps_of_storeChange (fun _ _ => CoveredSealed.change) s t hs h,
    fun _ => DependentsExact.heldTilesSealed⟩

/-! ## Canonical stores -/

/-- What is not missing of well-formed samples is canonical where an unlisted offset reads as missing. -/
theorem canonical_filter {m : Cells Word} (h : Cells.wf m) :
    Cells.canonical Config.nr (m.filter fun e => decide (e.2 ≠ Config.nr)) :=
  ⟨h.filter _, fun e he => by simpa using (List.mem_filter.mp he).2⟩

/-- Both buffers of a tile are in canonical form. -/
def Tile.BuffersCanonical (t : Tile) : Prop :=
  Cells.canonical Config.nr t.current ∧ Cells.canonical Config.nr t.spare

/-- One tile changed, its buffers canonical again. -/
theorem buffersCanonical_modifyTile {r : Relief} {key : TileKey} {f : Tile → Tile}
    (h : ∀ t ∈ r.tiles, t.BuffersCanonical) (hf : ∀ t : Tile, t.BuffersCanonical → (f t).BuffersCanonical) :
    ∀ t ∈ (r.modifyTile key f).tiles, t.BuffersCanonical := by
  intro t ht
  obtain ht | ⟨u, hu, -, rfl⟩ := Relief.mem_modifyTile ht
  · exact h t ht
  · exact hf u (h u hu)

/-- Dependents counts changed: no buffer is touched. -/
theorem buffersCanonical_adjustDependents {r : Relief} {fp : Footprint} {f : Nat → Nat}
    (h : ∀ t ∈ r.tiles, t.BuffersCanonical) : ∀ t ∈ (r.adjustDependents fp f).tiles, t.BuffersCanonical := by
  intro t ht
  obtain ht | ⟨i, u, hu, -, rfl⟩ := Relief.mem_adjustDependents ht
  · exact h t ht
  · exact h u (List.mem_of_getElem? hu)

/-- One slot emptied or filled with well-formed samples. -/
theorem samplesWf_set {slots : Four (Option Slot)} (h : ∀ i x, slots.get i = some x → Cells.wf x.samples) {i : Fin 4}
    {y : Option Slot} (hy : ∀ x, y = some x → Cells.wf x.samples) :
    ∀ j x, (slots.set i y).get j = some x → Cells.wf x.samples := by
  intro j x hx
  by_cases hj : j = i
  · subst hj
    rw [Four.get_set_same] at hx
    exact hy x hx
  · rw [Four.get_set_ne _ _ _ _ hj] at hx
    exact h j x hx

theorem StoresCanonical.change {s t : State} (c : StoreChange s t) (h : StoresCanonical s) : StoresCanonical t := by
  obtain ⟨htiles, hslots, hmaps⟩ := h
  have one {v : State} {k : CopySlot} (hk : (v.copy k).f0 = (s.copy k).f0 ∧ (v.copy k).floors = (s.copy k).floors)
      (hne : ∀ j, j ≠ k → v.copy j = s.copy j) (j : CopySlot) : Cells.canonical (v.copy j).f0 (v.copy j).floors := by
    by_cases hj : j = k
    · subst hj
      rw [hk.1, hk.2]
      exact hmaps j
    · rw [hne j hj]
      exact hmaps j
  cases c with
  | kept _ _ _ tiles staging copies => exact ⟨tiles ▸ htiles, staging ▸ hslots, fun k => (copies k).2 (hmaps k)⟩
  | issued n k u _ =>
    refine ⟨buffersCanonical_adjustDependents htiles, hslots, one (k := k) ?_ fun j => s.issueStrip_copy_ne n k j u⟩
    simp [State.issueStrip, Copy.updateStrip]
  | left k u record _ =>
    refine ⟨?_, ?_, one (k := k) ?_ fun j => s.leave_copy_ne k j u record⟩
    · rw [State.leave_relief, State.releaseTiles]
      split
      · exact buffersCanonical_adjustDependents htiles
      · exact htiles
    · rw [State.leave_staging]
      exact hslots
    · rw [State.leave_copy_same]
      exact ⟨rfl, rfl⟩
  | claimed i key mode st u _ _ _ =>
    refine ⟨buffersCanonical_modifyTile htiles fun _ hu => hu, samplesWf_set hslots fun x hx => ?_, hmaps⟩
    cases hx
    exact .nil
  | filled i x y used _ _ samples =>
    refine ⟨htiles, samplesWf_set hslots fun z hz => ?_, hmaps⟩
    cases hz
    exact samples (hslots i x used)
  | sealed i x used =>
    exact ⟨buffersCanonical_modifyTile htiles fun _ hu => ⟨canonical_filter (hslots i x used), hu.1⟩,
      samplesWf_set hslots nofun, hmaps⟩
  | freed i =>
    obtain ⟨-, e⟩ | ⟨x, r, -, e, -, -, ht⟩ := s.freeStaging_cases i <;> rw [e]
    · exact ⟨htiles, hslots, hmaps⟩
    · refine ⟨?_, samplesWf_set hslots nofun, hmaps⟩
      rw [State.setStaging_relief, State.setRelief_relief, ht]
      exact buffersCanonical_modifyTile htiles fun _ hu => hu
  | defined mw mh _ =>
    refine ⟨fun t ht => ?_, hslots, hmaps⟩
    rw [Relief.mem_define ht]
    exact ⟨⟨.nil, nofun⟩, .nil, nofun⟩
  | warm =>
    refine ⟨fun t ht => ?_, fun i x hx => ?_, hmaps⟩
    · obtain ⟨u, hu, rfl⟩ := List.mem_map.mp ht
      exact htiles u hu
    · simp at hx
  | cleared _ relief staging copies =>
    refine ⟨fun t ht => ?_, fun i x hx => ?_, fun k => ?_⟩
    · rw [relief] at ht
      exact absurd ht List.not_mem_nil
    · simp [staging] at hx
    · rw [State.copy, copies, Six.get_fill]
      exact ⟨.nil, nofun⟩

/-- Settles O27: every write of a buffer, of a slot or of a cut map keeps the canonical form. -/
theorem storesStayCanonical : Obligations.StoresStayCanonical :=
  fun s t hs h => step_keeps_of_storeChange (fun _ _ => StoresCanonical.change) s t hs h

end Sys2Proof.Machine

namespace Sys2Proof.Machine

/-! ## The interpolated depth (R50 to R53) -/

/-- A weighted sum lies between the sums of the weights taken at the bounds of the samples that carry weight. -/
theorem weightedSum_bounds {ws : List (Nat × Word)} {lo hi : Nat}
    (h : ∀ e ∈ ws, 0 < e.1 → lo ≤ e.2.toNat ∧ e.2.toNat ≤ hi) :
    lo * (ws.map Prod.fst).sum ≤ weightedSum ws ∧ weightedSum ws ≤ hi * (ws.map Prod.fst).sum := by
  induction ws with
  | nil => simp [weightedSum]
  | cons e ws ih =>
    obtain ⟨h1, h2⟩ := ih fun d hd => h d (List.mem_cons_of_mem e hd)
    have he : lo * e.1 ≤ e.1 * e.2.toNat ∧ e.1 * e.2.toNat ≤ hi * e.1 := by
      rcases Nat.eq_zero_or_pos e.1 with h0 | hpos
      · simp [h0]
      · obtain ⟨hl, hu⟩ := h e List.mem_cons_self hpos
        rw [Nat.mul_comm lo, Nat.mul_comm hi]
        exact ⟨Nat.mul_le_mul_left _ hl, Nat.mul_le_mul_left _ hu⟩
    simp only [weightedSum, List.map_cons, List.sum_cons, Nat.mul_add] at h1 h2 ⊢
    omega

/-- With weights that sum to 1 048 576 the interpolated depth lies between the samples that carry weight (R53). -/
theorem interpolate_bounds {ws : List (Nat × Word)} {lo hi : Nat} (hw : (ws.map Prod.fst).sum = 1048576)
    (h : ∀ e ∈ ws, 0 < e.1 → lo ≤ e.2.toNat ∧ e.2.toNat ≤ hi) : lo ≤ interpolate ws ∧ interpolate ws ≤ hi := by
  have hs := weightedSum_bounds h
  rw [hw] at hs
  unfold interpolate
  omega

/-- In a cell that is not held every sample that carries weight is a reading (R52). -/
theorem reading_of_not_held {ws : List (Nat × Word)} (h : heldByNr ws = false) {e : Nat × Word} (he : e ∈ ws)
    (hpos : 0 < e.1) : e.2.toNat ≤ 65534 := by
  have hne : e.2 ≠ Config.nr := by
    have := List.any_eq_false.mp h e he
    simpa [hpos] using this
  have hnat : e.2.toNat ≠ 65535 := fun hc => hne (BitVec.eq_of_toNat_eq hc)
  have := e.2.isLt
  omega

/-- A position in the last column or row lies at its start, within the extent: nothing of the next one is in it. -/
theorem fraction_eq_zero {x extent : Nat} (hx : x ≤ (extent - 1) * 1024) (hi : x / 1024 + 1 = extent) :
    x % 1024 = 0 := by
  omega

/-- The sample R4 shows: the current buffer's of a SEALED or RESCANNING tile, else no reading. -/
theorem Relief.sample_eq (r : Relief) (i j : Nat) : r.sample i j = match r.tile? ⟨i / 32, j / 32⟩ with
    | some t => if t.state = .sealed ∨ t.state = .rescanning then Cells.read 0xFFFF#16 t.current (j % 32 * 32 + i % 32)
      else 0xFFFF#16
    | none => 0xFFFF#16 := by
  unfold sample
  cases r.tile? ⟨i / 32, j / 32⟩ with
  | none => rfl
  | some t =>
    dsimp only
    unfold Tile.sample
    cases t.state <;> simp [Config.nr]

/-- The four weights sum to 1 048 576 (R51). -/
theorem weights_sum {fx fy : Nat} (hx : fx < 1024) (hy : fy < 1024) :
    (1024 - fx) * (1024 - fy) + (fx * (1024 - fy) + ((1024 - fx) * fy + fx * fy)) = 1048576 := by
  obtain ⟨a, ha⟩ := Nat.exists_eq_add_of_lt hx
  obtain ⟨b, hb⟩ := Nat.exists_eq_add_of_lt hy
  have ea : 1024 - fx = a + 1 := by omega
  have eb : 1024 - fy = b + 1 := by omega
  rw [ea, eb]
  calc (a + 1) * (b + 1) + (fx * (b + 1) + ((a + 1) * fy + fx * fy)) = (fx + a + 1) * (fy + b + 1) := by ring
    _ = 1048576 := by rw [← ha, ← hb]

theorem weightedSamples_sum (r : Relief) (m : Mapping) (cx cy : Nat) :
    ((weightedSamples r m cx cy).map Prod.fst).sum = 1048576 := by
  simp only [weightedSamples, List.map_cons, List.map_nil, List.sum_cons, List.sum_nil, Nat.add_zero]
  exact weights_sum (Nat.mod_lt _ (by decide)) (Nat.mod_lt _ (by decide))

/-- Settles O38: the weights sum to 1 048 576, so the interpolated depth is a mean of the samples that carry weight. -/
theorem interpolationBounds : Obligations.InterpolationBounds := by
  intro r m cx cy ws x y ix iy fx fy ix1 iy1
  have hws : ws = [((1024 - fx) * (1024 - fy), r.sample ix iy), (fx * (1024 - fy), r.sample ix1 iy),
      ((1024 - fx) * fy, r.sample ix iy1), (fx * fy, r.sample ix1 iy1)] := rfl
  have hfx : fx < 1024 := Nat.mod_lt _ (by decide)
  have hfy : fy < 1024 := Nat.mod_lt _ (by decide)
  have hsum : (ws.map Prod.fst).sum = 1048576 := weightedSamples_sum r m cx cy
  refine ⟨hws, r.sample_eq, rfl, hsum, fun e he => ?_, fun hx hi i e hie he => ?_, fun hy hi i e hie he => ?_,
    fun lo hi hheld hb => ?_⟩
  · rw [hws, List.head?_cons, Option.some.injEq] at he
    subst he
    exact Nat.mul_pos (by omega) (by omega)
  · have h0 : fx = 0 := fraction_eq_zero hx hi
    rw [hws, h0] at he
    obtain rfl | rfl := hie
    · obtain rfl := Option.some.inj he
      exact Nat.zero_mul _
    · obtain rfl := Option.some.inj he
      exact Nat.zero_mul _
  · have h0 : fy = 0 := fraction_eq_zero hy hi
    rw [hws, h0] at he
    obtain rfl | rfl := hie
    · obtain rfl := Option.some.inj he
      exact Nat.mul_zero _
    · obtain rfl := Option.some.inj he
      exact Nat.mul_zero _
  · obtain ⟨h1, h2⟩ := interpolate_bounds hsum hb
    have hread := interpolate_bounds (lo := 0) hsum fun e he hpos => ⟨Nat.zero_le _, reading_of_not_held hheld he hpos⟩
    exact ⟨h1, h2, hread.2⟩

/-! ## A strip's leaving (R77) -/

theorem State.leave_spindles (s : State) (k : CopySlot) (t : Strip) (record : Bool) :
    (s.leave k t record).spindles = ((s.releaseTiles t).releaseHolder k t record).spindles := by
  simp [leave]

/-- The holder loses the strip, and no other spindle is touched. -/
theorem State.leave_spindle (s : State) (k : CopySlot) (t : Strip) (record : Bool) {n : SpindleId}
    (h : t.holder = some n) (j : SpindleId) :
    (s.leave k t record).spindle j = if j = n then (s.spindle n).loseStrip k t record else s.spindle j := by
  have hs (m : SpindleId) : (s.releaseTiles t).spindle m = s.spindle m := by
    rw [spindle, spindle, releaseTiles_spindles]
  rw [spindle, leave_spindles, releaseHolder, h]
  show ((s.releaseTiles t).modifySpindle n _).spindle j = _
  split
  · next hj => rw [hj, modifySpindle_spindle_same, hs]
  · next hj => rw [modifySpindle_spindle_ne _ _ _ _ hj, hs]

/-- A computation for the strip is abandoned, another goes on; the grant pointer stays (R109). -/
theorem State.leave_engine (s : State) (k : CopySlot) (t : Strip) (record : Bool) :
    (s.leave k t record).engine =
      { s.engine with inFlight := s.engine.inFlight.filter fun c => decide (c.key ≠ t.keyIn k) } := by
  have he : ((s.releaseTiles t).releaseHolder k t record).engine = s.engine := by simp
  rw [leave, modifyCopy_engine, abandon, computes, apply_ite State.engine, setEngine_engine, he]
  rcases s.engine with ⟨_ | c, pointer⟩
  · rfl
  · by_cases hk : c.key = t.keyIn k <;> simp [hk, Option.filter]

theorem Spindle.loseStrip_queue (sp : Spindle) (k : CopySlot) (t : Strip) (record : Bool) :
    (sp.loseStrip k t record).queue = sp.queue.filter fun e => decide (e.key ≠ t.keyIn k) := by
  cases record <;> rfl

theorem Spindle.loseStrip_readPos (sp : Spindle) (k : CopySlot) (t : Strip) (record : Bool) :
    (sp.loseStrip k t record).readPos =
      ((sp.queue.take sp.readPos).filter fun e => decide (e.key ≠ t.keyIn k)).length := by
  cases record <;> rfl

/-- What was drawn and what is unread stay apart at the read position (R111). -/
theorem filter_take_drop {α : Type} (l : List α) (i : Nat) (p : α → Bool) :
    (l.filter p).take ((l.take i).filter p).length = (l.take i).filter p ∧
      (l.filter p).drop ((l.take i).filter p).length = (l.drop i).filter p := by
  have h : l.filter p = (l.take i).filter p ++ (l.drop i).filter p := by
    rw [← List.filter_append, List.take_append_drop]
  rw [h]
  exact ⟨List.take_left, List.drop_left⟩

/-- Settles O43: relief, engine, copy and holder, each as its own lemma reads it after the leaving. -/
theorem leaveEffects : Obligations.LeaveEffects := by
  intro s k t n fp record hn hfp key v sp
  have hsp : v.spindle n = sp.loseStrip k t record := by rw [s.leave_spindle k t record hn, if_pos rfl]
  have hsplit := filter_take_drop sp.queue sp.readPos fun e => decide (e.key ≠ key)
  have hq : (v.spindle n).queue = sp.queue.filter fun e => decide (e.key ≠ key) := by
    rw [hsp]; exact sp.loseStrip_queue k t record
  have hr : (v.spindle n).readPos = ((sp.queue.take sp.readPos).filter fun e => decide (e.key ≠ key)).length := by
    rw [hsp]; exact sp.loseStrip_readPos k t record
  have hkeeps : Keeps s v { relief := true, engine := true, copies := [k], spindles := [n] } := by
    refine ⟨nofun, fun _ => s.leave_staging k t record, nofun, fun j hj => ?_, fun j hj => ?_, fun p _ => ?_,
      s.leave_inReset k t record, s.leave_choices k t record, s.leave_pending k t record⟩
    · exact s.leave_copy_ne k j t record (by simpa using hj)
    · rw [s.leave_spindle k t record hn, if_neg (by simpa using hj)]
    · rw [State.port, State.port, s.leave_ports k t record]
  refine ⟨hkeeps, s.leave_copy_same k t record, ?_, ?_, ?_, ?_, ?_, ?_, ?_, ?_⟩
  · rw [s.leave_relief k t record, State.releaseTiles, hfp]
    rfl
  · rw [s.leave_engine k t record]
  · rw [s.leave_engine k t record]
    rfl
  · rw [hsp]
    cases record <;> rfl
  · rw [hq, hr]
    exact hsplit.1
  · rw [hq, hr]
    exact hsplit.2
  · rintro rfl
    rw [hsp]
    rfl
  · rintro rfl
    rw [hsp]
    rfl

end Sys2Proof.Machine

namespace Sys2Proof.Machine

/-! ## Reset (R25, R47, R103, R165) -/

theorem State.reset_copy (k : CopySlot) : State.reset.copy k = Copy.free := Six.get_fill _ _

theorem State.reset_spindle (n : SpindleId) : State.reset.spindle n = Spindle.fresh := Six.get_fill _ _

theorem State.reset_port (p : PortId) : State.reset.port p = Port.fresh p := by
  cases p with
  | plan => rfl
  | scan => rfl
  | spindle n => fin_cases n <;> rfl

theorem State.reset_staging (i : Fin 4) : State.reset.staging.get i = none := Four.get_fill _ _

/-- Settles O3: every block's power-on value, read part by part. -/
theorem resetValues : Obligations.ResetValues := by
  refine ⟨⟨rfl, rfl, rfl, rfl, rfl⟩, State.reset_staging, fun k => ?_, fun n => ?_, ⟨rfl, rfl⟩, fun p => ?_⟩
  · rw [State.reset_copy]
    exact ⟨rfl, rfl, rfl, rfl⟩
  · rw [State.reset_spindle]
    exact ⟨rfl, rfl, rfl, rfl, rfl, rfl, rfl, rfl, rfl, rfl, rfl, rfl⟩
  · rw [State.reset_port]
    cases p <;> exact ⟨rfl, rfl, rfl, rfl, rfl, rfl, rfl⟩

/-- RESET_SEEN alone asserts the line (R174). -/
theorem attention_fresh (p : PortId) : attention (Port.fresh p) = true :=
  if_pos (show (1#16).getLsbD resetSeenBit = true by decide)

theorem linesAgree_reset : LinesAgree State.reset := by
  intro p
  rw [State.reset_port, attention_fresh]
  rfl

theorem slotsAgree_reset : SlotsAgree State.reset :=
  (slotsAgree_iff _).mpr (.of_unused State.reset_staging nofun)

theorem coveredSealed_reset : CoveredSealed State.reset := fun _ ht => absurd ht List.not_mem_nil

theorem dependentsExact_reset : DependentsExact State.reset := by
  refine ⟨fun k => ?_, fun i t ht => absurd (List.mem_of_getElem? ht) List.not_mem_nil⟩
  rw [State.reset_copy]
  exact ⟨.nil, fun _ ht => absurd ht List.not_mem_nil, fun _ => rfl⟩

theorem storesCanonical_reset : StoresCanonical State.reset := by
  refine ⟨fun _ ht => absurd ht List.not_mem_nil, fun i x hx => ?_, fun k => ?_⟩
  · rw [State.reset_staging] at hx
    cases hx
  · rw [State.reset_copy]
    exact ⟨.nil, nofun⟩

theorem zonesApart_reset : ZonesApart State.reset := by
  intro k
  rw [State.reset_copy]
  exact ⟨.nil, fun _ ht => absurd ht List.not_mem_nil⟩

theorem boundsHold_reset : BoundsHold State.reset := by
  refine ⟨fun n => ?_, fun k => ?_, fun n => ?_, fun k => ?_⟩
  · rw [State.reset_spindle]
    decide
  · rw [State.reset_copy]
    exact ⟨fun _ ht => absurd ht List.not_mem_nil, by decide⟩
  · rw [State.reset_spindle]
    decide
  · rw [State.reset_copy]
    decide

/-- Settles O60, invariant by invariant. -/
theorem invariantsAtReset : Obligations.InvariantsAtReset :=
  ⟨linesAgree_reset, slotsAgree_reset, coveredSealed_reset, dependentsExact_reset, storesCanonical_reset,
    zonesApart_reset, boundsHold_reset⟩

/-! ## Bytes of an answer -/

/-- A byte taken as a number and sent in one byte. -/
theorem u8_toNat (b : Byte) : u8 b.toNat = [b] := by simp [u8]

theorem slotModeBytes_eq (m : SlotMode) : slotModeBytes m = [if m = .rescan then 1#8 else 0#8] := by
  cases m <;> rfl

theorem tileKeyBytes_of_bytes (tx ty : Byte) : tileKeyBytes (tileKeyOf tx ty) = [tx, ty] := by
  simp [tileKeyBytes, tileKeyOf, u8_toNat]

/-! ## Opening a tile (R8, R9) -/

theorem Cells.lookup_map_of_mem {α : Type} (f : Nat → α) (l : List Nat) (o : Nat) :
    Cells.lookup (l.map fun j => (j, f j)) o = if o ∈ l then some (f o) else none := by
  induction l with
  | nil => rfl
  | cons j l ih =>
    rw [List.map_cons, lookup, ih]
    by_cases h : j = o
    · simp [h]
    · simp [h, Ne.symm h]

/-- A preload fills the slot with the tile's sample at each of the 1024 offsets (R9). -/
theorem allSamples_lookup (buffer : Cells Word) (o : Nat) :
    (allSamples buffer).lookup o = if o < 1024 then some (Cells.read 0xFFFF#16 buffer o) else none := by
  rw [allSamples, Cells.lookup_map_of_mem]
  simp only [List.mem_range]
  rfl

theorem Relief.defined_eq_false_iff (r : Relief) : r.defined = false ↔ r.mw = 0 := by simp [defined]

/-- What a command that is a request does, where its own rule's effect is known. -/
theorem next_request {s : State} {p : PortId} {f : State → State} {t : State} (h : f (s.take p) = t) :
    (Host.Outcome.next (s.request p f) : Result) = .next (s.ifTaken p t) := by
  rw [State.request_eq, h]

/-- Settles O19: the checks in order, the slot search, and the preload's end. -/
theorem openTileAndPreload : Obligations.OpenTileAndPreload := by
  refine ⟨fun tx ty s => ?_, State.freeSlot_eq_some_iff, State.freeSlot_eq_none_iff,
    fun _ _ _ => State.preloadingSlot_some, State.preloadingSlot_eq_none_iff, fun s h => ?_, fun s i x t hx ht => ?_⟩
  · intro key
    have hitems : tileKeyBytes key ++ slotModeBytes .first = [tx, ty, 0#8] :=
      congrArg (· ++ slotModeBytes .first) (tileKeyBytes_of_bytes tx ty)
    have hk : tileKeyOf tx ty = key := rfl
    have hfree : (s.take .scan).freeSlot = s.freeSlot := rfl
    refine next_request ?_
    simp only [State.take_relief, State.take_answer, Relief.defined_eq_false_iff, hk, hfree]
    refine if_congr Iff.rfl rfl ?_
    cases s.relief.tile? key with
    | none => rfl
    | some t =>
      cases hs : t.state with
      | staging => simp [hs]
      | rescanning => simp [hs]
      | absent =>
        simp only [hs, reduceCtorEq, or_self, if_false, if_true]
        cases s.freeSlot with
        | none => rfl
        | some i =>
          rw [← State.take_answer, ← hitems]
          rfl
      | sealed =>
        simp only [hs, reduceCtorEq, or_self, if_false]
        cases s.freeSlot with
        | none => rfl
        | some i =>
          rw [← State.take_eq_working]
          rfl
  · simp only [exec, execRescanPreloadCompletion, h]
  · refine ⟨allSamples t.current, ?_, by simp [allSamples], allSamples_lookup t.current⟩
    simp only [exec, execRescanPreloadCompletion, hx, ht]
    rfl


/-! ## Writing, viewing, sealing and dropping (R10 to R19) -/

/-- Values written one after another from an offset on are read back there, and nothing else is changed (R10). -/
theorem Cells.lookup_insertRun {α : Type} (m : Cells α) (k o : Nat) (vs : List α) :
    (m.insertRun k vs).lookup o = if k ≤ o ∧ o < k + vs.length then vs[o - k]? else m.lookup o := by
  induction vs generalizing m k with
  | nil =>
    have h : ¬ (k ≤ o ∧ o < k + ([] : List α).length) := by simp
    rw [if_neg h]
    rfl
  | cons v vs ih =>
    rw [insertRun, ih, lookup_insert, List.length_cons]
    by_cases hk : k = o
    · subst hk
      simp
    · by_cases hr : k + 1 ≤ o ∧ o < k + 1 + vs.length
      · obtain ⟨j, rfl⟩ : ∃ j, o = k + 1 + j := ⟨o - (k + 1), by omega⟩
        rw [if_pos hr, if_pos (by omega), show k + 1 + j - (k + 1) = j by omega, show k + 1 + j - k = j + 1 by omega,
          List.getElem?_cons_succ]
      · rw [if_neg hr, if_neg hk, if_neg (by omega)]

/-- Settles O20: the rule of each request on the slot found, and the lookup after a run of writes. -/
theorem stagingWriteAndView : Obligations.StagingWriteAndView := by
  refine ⟨fun _ _ _ _ => State.findSlot_some, State.findSlot_eq_none_iff, fun tx ty offset vs s => ?_,
    Cells.lookup_insertRun, fun tx ty offset count s => ?_⟩
  · refine next_request ?_
    have hfind : (s.take .scan).findSlot (tileKeyOf tx ty) = s.findSlot ⟨tx.toNat, ty.toNat⟩ := rfl
    simp only [State.take_answer, hfind]
    cases s.findSlot ⟨tx.toNat, ty.toNat⟩ with
    | none => rfl
    | some f =>
      refine if_congr Iff.rfl rfl ?_
      rw [← State.take_answer]
      rfl
  · refine next_request ?_
    have hfind : (s.take .scan).findSlot (tileKeyOf tx ty) = s.findSlot ⟨tx.toNat, ty.toNat⟩ := rfl
    simp only [State.take_answer, hfind]
    cases s.findSlot ⟨tx.toNat, ty.toNat⟩ with
    | none => rfl
    | some f =>
      refine if_congr Iff.rfl rfl ?_
      simp only [slotModeBytes_eq]
      rfl

/-- Settles O21: the rule of each request on the slot found. -/
theorem sealAndDrop : Obligations.SealAndDrop := by
  intro tx ty crc s
  have hfind : (s.take .scan).findSlot (tileKeyOf tx ty) = s.findSlot ⟨tx.toNat, ty.toNat⟩ := rfl
  constructor
  · refine next_request ?_
    simp only [State.take_answer, hfind]
    cases s.findSlot ⟨tx.toNat, ty.toNat⟩ with
    | none => rfl
    | some f =>
      refine if_congr Iff.rfl rfl (if_congr Iff.rfl rfl ?_)
      rw [State.take_eq_working]
  · refine next_request ?_
    simp only [State.take_answer, hfind]
    cases hf : s.findSlot ⟨tx.toNat, ty.toNat⟩ with
    | none => rfl
    | some f =>
      obtain ⟨i, x⟩ := f
      have hx : (s.take .scan).staging.get i = some x := (State.findSlot_some hf).1
      simp only [State.freeStaging, hx]
      rw [← State.take_answer]
      rfl

/-! ## Defining and reading the relief (R1, R2, R21) -/

theorem goodExtent_eq_true_iff (n : Nat) : goodExtent n = true ↔ 32 ≤ n ∧ n ≤ 2048 ∧ n % 32 = 0 := by
  simp only [goodExtent, Bool.and_eq_true, decide_eq_true_eq, and_assoc]

/-- DEFINE RELIEF: refused for what is in use, then for a bad extent; otherwise a new relief (R2). -/
theorem exec_defineRelief (mw mh : Word) (s : State) :
    exec (.defineRelief mw mh) s = .next (s.ifTaken .plan (
      if s.reliefInUse = true then s.replied .plan .badState []
      else if goodExtent mw.toNat = false ∨ goodExtent mh.toNat = false then s.replied .plan .badArg []
      else (s.replied .plan .ok (u16 (mw.toNat / 32) ++ u16 (mh.toNat / 32))).setRelief
        (Relief.define mw.toNat mh.toNat))) := by
  refine next_request ?_
  have hu : (s.take .plan).reliefInUse = s.reliefInUse := rfl
  simp only [hu, State.take_answer]
  refine if_congr Iff.rfl rfl (if_congr Iff.rfl rfl ?_)
  rw [← State.take_answer]
  rfl

/-- Settles O23: the two refusals, the new table, and the sample as R4 shows it. -/
theorem reliefDefineAndRead : Obligations.ReliefDefineAndRead := by
  refine ⟨fun mw mh s => ⟨fun hu => ?_, fun hc hs => ?_⟩, fun iy ix0 count s => ?_⟩
  · rw [exec_defineRelief, if_pos ((State.reliefInUse_eq_true_iff s).mpr hu)]
  · have hu : ¬ s.reliefInUse = true := by
      rw [State.reliefInUse_eq_true_iff]
      rintro (⟨k, h⟩ | ⟨i, h⟩)
      · exact h (hc k)
      · exact h (hs i)
    simp only [exec_defineRelief, if_neg hu, ← goodExtent_eq_true_iff]
    refine ⟨fun hg => ?_, fun ⟨hw, hh⟩ => ?_⟩
    · rw [if_pos]
      simpa only [Bool.not_eq_true] using not_and_or.mp hg
    · rw [if_neg (by simp [hw, hh])]
      rfl
  · refine next_request ?_
    simp only [State.take_answer, State.take_relief, Relief.defined_eq_false_iff]
    refine if_congr Iff.rfl rfl (if_congr Iff.rfl rfl (congrArg (s.replied .plan .ok) ?_))
    exact List.flatMap_congr fun ix _ => congrArg word2 (s.relief.sample_eq ix iy.toNat)

/-! ## The completion of a seal (R16, R17) -/

/-- Nothing is listed below the first key. -/
theorem Cells.lookup_eq_none_of_lt {α : Type} {m : Cells α} {k : Nat} (h : ∀ e ∈ m, k < e.1) : m.lookup k = none := by
  induction m with
  | nil => rfl
  | cons e m ih =>
    have he : e.1 ≠ k := by
      have := h e List.mem_cons_self
      omega
    rw [lookup, if_neg he]
    exact ih fun f hf => h f (List.mem_cons_of_mem e hf)

/-- A filter of well-formed contents is read as before where it keeps the value, and nothing is listed elsewhere. -/
theorem Cells.lookup_filter {α : Type} {m : Cells α} (h : m.wf) (p : α → Bool) (k : Nat) :
    Cells.lookup (m.filter fun e => p e.2) k = (m.lookup k).filter p := by
  induction m with
  | nil => rfl
  | cons e m ih =>
    obtain ⟨j, v⟩ := e
    obtain ⟨hlt, hm⟩ := List.pairwise_cons.mp h
    by_cases hj : j = k
    · subst hj
      cases hp : p v
      · have hnone : Cells.lookup m j = none := lookup_eq_none_of_lt hlt
        rw [List.filter_cons_of_neg (by simp [hp]), ih hm, hnone]
        simp [lookup, Option.filter, hp]
      · rw [List.filter_cons_of_pos (by simp [hp])]
        simp [lookup, Option.filter, hp]
    · cases hp : p v
      · rw [List.filter_cons_of_neg (by simp [hp]), ih hm, lookup, if_neg hj]
      · rw [List.filter_cons_of_pos (by simp [hp]), lookup, if_neg hj, ih hm, lookup, if_neg hj]

/-- The samples switched in at a seal read as those of the slot: what is not listed reads as 65535 (R4, R16). -/
theorem read_sealed {m : Cells Word} (h : Cells.wf m) (o : Nat) :
    Cells.read 0xFFFF#16 (m.filter fun e => decide (e.2 ≠ Config.nr)) o = (m.lookup o).getD 0xFFFF#16 := by
  rw [Cells.read, Cells.lookup_filter h fun v => decide (v ≠ Config.nr)]
  cases m.lookup o with
  | none => rfl
  | some v => by_cases hv : v = 0xFFFF#16 <;> simp [Option.filter, hv, Config.nr]

/-- An active hold of SCAN origin (R133). -/
abbrev Spindle.ScanHeld (sp : Spindle) : Prop := 0 < sp.holdRemaining ∧ sp.holdOrigin = .scan

/-- One spindle's hold ended if it is of SCAN origin (R17). -/
def State.cancelScanHold (s : State) (n : SpindleId) : State := if (s.spindle n).ScanHeld then s.endHold n else s

theorem State.cancelScanHolds_eq_foldl (s : State) : s.cancelScanHolds = allSix.foldl cancelScanHold s := rfl

theorem State.raise_port_same (s : State) (p : PortId) (bit : Nat) :
    (s.raise p bit).port p = setLatch s.inReset bit (s.port p) := modifyPort_port_same _ _ _

theorem State.raise_port_ne (s : State) (p q : PortId) (bit : Nat) (h : q ≠ p) :
    (s.raise p bit).port q = s.port q := modifyPort_port_ne _ _ _ _ h

theorem State.endHold_port (s : State) (n : SpindleId) (q : PortId) :
    (s.endHold n).port q = if q = .spindle n then (s.raise q 3).port q else s.port q := by
  split
  · next h =>
    subst h
    exact ((s.modifySpindle n _).raise_port_same _ _).trans (s.raise_port_same _ _).symm
  · next h => exact (s.modifySpindle n _).raise_port_ne _ _ _ h

theorem State.endHold_spindle (s : State) (n j : SpindleId) :
    (s.endHold n).spindle j =
      if j = n then { s.spindle j with holdRemaining := 0, holdOrigin := .plan } else s.spindle j := by
  unfold endHold
  rw [latchSpindle_spindle]
  split
  · next h => rw [h, modifySpindle_spindle_same]
  · next h => exact modifySpindle_spindle_ne _ _ _ _ h

/-- What the end of a hold leaves alone for every spindle of a list, the end of their holds of SCAN origin does too. -/
theorem State.foldl_cancelScanHold {β : Type} (g : State → β) (l : List SpindleId)
    (hg : ∀ n ∈ l, ∀ s, g (s.endHold n) = g s) (s : State) : g (l.foldl cancelScanHold s) = g s := by
  induction l generalizing s with
  | nil => rfl
  | cons n l ih =>
    rw [List.foldl_cons, ih fun m hm => hg m (List.mem_cons_of_mem n hm), cancelScanHold]
    split
    · exact hg n List.mem_cons_self s
    · rfl

theorem State.cancelScanHolds_keeps {β : Type} (g : State → β) (hg : ∀ n s, g (s.endHold n) = g s) (s : State) :
    g s.cancelScanHolds = g s :=
  foldl_cancelScanHold g allSix (fun n _ => hg n) s

/-- Of one spindle and its port, the end of the holds of SCAN origin leaves what its own turn leaves. -/
theorem State.cancelScanHolds_turn (s : State) (j : SpindleId) :
    ∃ v : State, v.spindle j = s.spindle j ∧ v.port (.spindle j) = s.port (.spindle j) ∧ v.inReset = s.inReset ∧
      s.cancelScanHolds.spindle j = (v.cancelScanHold j).spindle j ∧
      s.cancelScanHolds.port (.spindle j) = (v.cancelScanHold j).port (.spindle j) := by
  obtain ⟨a, b, hab⟩ := List.append_of_mem (mem_allSix j)
  have hnd : (a ++ j :: b).Nodup := hab ▸ (by decide : allSix.Nodup)
  obtain ⟨-, hb, hne⟩ := List.nodup_append.mp hnd
  have ha : ∀ n ∈ a, j ≠ n := fun n hn => (hne n hn j List.mem_cons_self).symm
  have hb : ∀ n ∈ b, j ≠ n := fun n hn he => (List.nodup_cons.mp hb).1 (he ▸ hn)
  have hspindle {n : SpindleId} (h : j ≠ n) (u : State) : (u.endHold n).spindle j = u.spindle j := by
    rw [endHold_spindle, if_neg h]
  have hport {n : SpindleId} (h : j ≠ n) (u : State) : (u.endHold n).port (.spindle j) = u.port (.spindle j) := by
    rw [endHold_port, if_neg (by simpa using h)]
  refine ⟨a.foldl cancelScanHold s, ?_, ?_, ?_, ?_, ?_⟩
  · exact foldl_cancelScanHold (fun u => u.spindle j) a (fun n hn => hspindle (ha n hn)) s
  · exact foldl_cancelScanHold (fun u => u.port (.spindle j)) a (fun n hn => hport (ha n hn)) s
  · exact foldl_cancelScanHold State.inReset a (fun _ _ _ => rfl) s
  · rw [cancelScanHolds_eq_foldl, hab, List.foldl_append, List.foldl_cons]
    exact foldl_cancelScanHold (fun u => u.spindle j) b (fun n hn => hspindle (hb n hn)) _
  · rw [cancelScanHolds_eq_foldl, hab, List.foldl_append, List.foldl_cons]
    exact foldl_cancelScanHold (fun u => u.port (.spindle j)) b (fun n hn => hport (hb n hn)) _

theorem State.cancelScanHolds_spindle (s : State) (j : SpindleId) :
    s.cancelScanHolds.spindle j =
      if (s.spindle j).ScanHeld then { s.spindle j with holdRemaining := 0, holdOrigin := .plan } else s.spindle j := by
  obtain ⟨v, hv, -, -, e, -⟩ := s.cancelScanHolds_turn j
  rw [e, cancelScanHold, apply_ite (State.spindle · j), endHold_spindle, if_pos rfl, hv]

theorem State.cancelScanHolds_port (s : State) (j : SpindleId) :
    s.cancelScanHolds.port (.spindle j) =
      if (s.spindle j).ScanHeld then (s.raise (.spindle j) 3).port (.spindle j) else s.port (.spindle j) := by
  obtain ⟨v, hv, hp, hr, -, e⟩ := s.cancelScanHolds_turn j
  rw [e, cancelScanHold, apply_ite (State.port · (.spindle j)), endHold_port, if_pos rfl, hv, raise_port_same,
    raise_port_same, hp, hr]

/-- The port of another unit is not touched by the end of a hold. -/
theorem State.cancelScanHolds_port_ne (s : State) {p : PortId} (h : ∀ n, p ≠ .spindle n) :
    s.cancelScanHolds.port p = s.port p :=
  cancelScanHolds_keeps (fun u => u.port p) (fun n u => by rw [endHold_port, if_neg (h n)]) s

/-- The state a seal completion hands its work on from (R16, R17). -/
def State.sealCompleted (s : State) (i : Fin 4) (x : Slot) (t : Tile) : State :=
  (((((s.setRelief (s.relief.completeSeal x)).setStaging i none).answer .scan .ok
    (tileKeyBytes x.key ++ u8 (min 255 (t.sealCount + 1)))).latchScan .sealDone).latchPlan .tileSealed).cancelScanHolds

theorem exec_sealCompletion {s : State} {i : Fin 4} {x : Slot} {t : Tile} (hx : s.sealingSlot = some (i, x))
    (ht : s.relief.tile? x.key = some t) :
    exec .sealCompletion s = .next ((s.sealCompleted i x t).handOn (allSix.map Chore.evaluate)) := by
  simp only [exec, execSealCompletion, hx, ht]
  rfl

theorem State.sealCompleted_relief (s : State) (i : Fin 4) (x : Slot) (t : Tile) :
    (s.sealCompleted i x t).relief = s.relief.completeSeal x :=
  cancelScanHolds_keeps State.relief (fun _ _ => rfl) _

/-- Settles O22: the relief after the switch, and each spindle and port after its turn in the ending of holds. -/
theorem sealCompletionEffects : Obligations.SealCompletionEffects := by
  refine ⟨fun _ _ _ => State.sealingSlot_some, State.sealingSlot_eq_none_iff, fun s h => ?_, fun s i x t hx ht => ?_⟩
  · simp only [exec, execSealCompletion, h]
  · have hrel := s.sealCompleted_relief i x t
    refine ⟨s.sealCompleted i x t, exec_sealCompletion hx ht, ?_, ?_, ?_, ?_, ?_, ?_, fun key hkey => ?_,
      ?_, ?_, ?_, ?_, ?_, fun n => ?_, ?_, ?_, fun n => ?_⟩
    · exact State.cancelScanHolds_keeps State.copies (fun _ _ => rfl) _
    · exact State.cancelScanHolds_keeps State.engine (fun _ _ => rfl) _
    · exact State.cancelScanHolds_keeps State.inReset (fun _ _ => rfl) _
    · exact State.cancelScanHolds_keeps State.choices (fun _ _ => rfl) _
    · exact State.cancelScanHolds_keeps State.pending (fun _ _ => rfl) _
    · refine ⟨_, ?_, read_sealed⟩
      rw [hrel, Relief.tile?_completeSeal, Relief.tile?_modifyTile, if_pos rfl, ht]
      rfl
    · rw [hrel, Relief.tile?_completeSeal, Relief.tile?_modifyTile, if_neg hkey]
    · exact (congrArg Relief.mw hrel).trans (s.relief.modifyTile_mw _ _)
    · exact (congrArg Relief.mh hrel).trans (s.relief.modifyTile_mh _ _)
    · exact congrArg Relief.sealedCount hrel
    · exact congrArg Relief.wanted hrel
    · exact State.cancelScanHolds_keeps State.staging (fun _ _ => rfl) _
    · exact State.cancelScanHolds_spindle _ n
    · exact (State.cancelScanHolds_port_ne _ fun _ h => PortId.noConfusion h).trans rfl
    · exact (State.cancelScanHolds_port_ne _ fun _ h => PortId.noConfusion h).trans rfl
    · exact (State.cancelScanHolds_port _ n).trans rfl

end Sys2Proof.Machine

namespace Sys2Proof.Machine

/-! ## What a command can do to a copy and to a spindle -/

/-- Every counter within 65535 (R43). -/
def Counters.Bounded (c : Counters) : Prop :=
  c.spoil ≤ Config.maxCounter ∧ c.overcut ≤ Config.maxCounter ∧ c.stale ≤ Config.maxCounter ∧
    c.stuck ≤ Config.maxCounter ∧ c.clamped ≤ Config.maxCounter ∧ c.held ≤ Config.maxCounter

/-- Retry counts, counters and wait hold of a copy within their bounds (R26, R43, R79). -/
def Copy.Bounded (c : Copy) : Prop :=
  (∀ t ∈ c.queue, t.retry ≤ Config.maxRetries) ∧ c.counters.Bounded ∧ c.waitHold ≤ 65535

/-- A hold record within its bounds (R133). -/
def holdLegal (remaining : Nat) (origin : HoldOrigin) : Prop := remaining ≤ 65535 ∧ (origin = .scan → 0 < remaining)

/-- A hold that has ended (R135). -/
theorem holdLegal_ended : holdLegal 0 .plan := ⟨Nat.zero_le _, nofun⟩

/-- The lists and the hold of a spindle within their bounds (R87, R133, R139). -/
def Spindle.Bounded (sp : Spindle) : Prop :=
  (sp.issued.length ≤ 2 ∧ sp.departed.length ≤ 4) ∧ holdLegal sp.holdRemaining sp.holdOrigin

theorem Spindle.Bounded.issued {sp : Spindle} (h : sp.Bounded) : sp.issued.length ≤ 2 := h.1.1
theorem Spindle.Bounded.departed {sp : Spindle} (h : sp.Bounded) : sp.departed.length ≤ 4 := h.1.2
theorem Spindle.Bounded.hold {sp : Spindle} (h : sp.Bounded) : holdLegal sp.holdRemaining sp.holdOrigin := h.2

theorem boundsHold_iff (s : State) :
    BoundsHold s ↔ (∀ k, (s.copy k).Bounded) ∧ ∀ n, (s.spindle n).Bounded := by
  constructor
  · rintro ⟨hl, hc, hh, hw⟩
    exact ⟨fun k => ⟨(hc k).1, (hc k).2, hw k⟩, fun n => ⟨hl n, hh n⟩⟩
  · rintro ⟨hc, hs⟩
    refine ⟨fun n => (hs n).1, fun k => ?_, fun n => (hs n).2, fun k => ?_⟩
    · obtain ⟨hq, hn, -⟩ := hc k
      exact ⟨hq, hn⟩
    · obtain ⟨-, -, hw⟩ := hc k
      exact hw

theorem Counters.zero_bounded : Counters.zero.Bounded := by simp [Counters.Bounded, Counters.zero]

theorem raiseCounter_le (c n : Nat) : raiseCounter c n ≤ Config.maxCounter := Nat.min_le_left _ _

theorem Copy.free_bounded : Copy.free.Bounded :=
  ⟨fun _ ht => absurd ht List.not_mem_nil, Counters.zero_bounded, Nat.zero_le _⟩

/-- No command moves a copy twice to two different states (R27): what a command leads to it does not lead out of. -/
theorem copyMove_twice {i : Instr} {a b c : CopyState} (h1 : copyMove a b i = true) (h2 : copyMove b c i = true) :
    c = b := by
  cases i <;> grind [copyMove]

/-- What command i can make of a copy: its state as before or moved as R27 lists; no floor raised, unless the copy comes
to a state in which its map is not read (R33); and its numbers within their bounds if they were. -/
structure Copy.MovesBy (i : Instr) (c d : Copy) : Prop where
  state : d.state = c.state ∨ copyMove c.state d.state i = true
  floors : (∀ cx cy, c.floor cx cy ≤ d.floor cx cy) ∨
    copyMove c.state d.state i = true ∧ (d.state = .free ∨ d.state = .clearing)
  bounded : c.Bounded → d.Bounded

section
variable {i : Instr} {a b c d : Copy}

theorem Copy.MovesBy.trans (h1 : a.MovesBy i b) (h2 : b.MovesBy i c) : a.MovesBy i c := by
  have through (h : copyMove a.state b.state i = true) : copyMove a.state c.state i = true ∧ c.state = b.state := by
    obtain e | e := h2.state
    · exact ⟨e ▸ h, e⟩
    · have e := copyMove_twice h e
      exact ⟨e ▸ h, e⟩
  refine ⟨?_, ?_, fun h => h2.bounded (h1.bounded h)⟩
  · obtain e | e := h1.state
    · rw [← e]
      exact h2.state
    · exact .inr (through e).1
  · obtain f1 | ⟨m1, hs⟩ := h1.floors
    · obtain f2 | ⟨m2, hs⟩ := h2.floors
      · exact .inl fun cx cy => (f1 cx cy).trans (f2 cx cy)
      · obtain e | e := h1.state
        · exact .inr ⟨e ▸ m2, hs⟩
        · exact .inr ⟨(through e).1, hs⟩
    · obtain ⟨m, e⟩ := through m1
      exact .inr ⟨m, e ▸ hs⟩

theorem Copy.floor_congr (h0 : d.f0 = c.f0) (hm : d.floors = c.floors) (cx cy : Nat) :
    d.floor cx cy = c.floor cx cy := by
  rw [Copy.floor, Copy.floor, h0, hm]

/-- A copy whose state and cut map are as before. -/
theorem Copy.MovesBy.of_same (hs : d.state = c.state) (h0 : d.f0 = c.f0) (hm : d.floors = c.floors)
    (hb : c.Bounded → d.Bounded) : c.MovesBy i d :=
  ⟨.inl hs, .inl fun cx cy => (Copy.floor_congr h0 hm cx cy).ge, hb⟩

theorem Copy.MovesBy.refl (c : Copy) : c.MovesBy i c := .of_same rfl rfl rfl id

/-- A copy moved to another state, its cut map as before. -/
theorem Copy.MovesBy.of_move (hs : copyMove c.state d.state i = true) (h0 : d.f0 = c.f0) (hm : d.floors = c.floors)
    (hb : c.Bounded → d.Bounded) : c.MovesBy i d :=
  ⟨.inr hs, .inl fun cx cy => (Copy.floor_congr h0 hm cx cy).ge, hb⟩

/-- A copy moved to a state in which its map is not read. -/
theorem Copy.MovesBy.of_unread (hs : copyMove c.state d.state i = true) (hd : d.state = .free ∨ d.state = .clearing)
    (hb : d.Bounded) : c.MovesBy i d :=
  ⟨.inr hs, .inr ⟨hs, hd⟩, fun _ => hb⟩

/-- A copy with another strip table. -/
theorem Copy.MovesBy.of_queue {q : List Strip}
    (hq : (∀ t ∈ c.queue, t.retry ≤ Config.maxRetries) → ∀ t ∈ q, t.retry ≤ Config.maxRetries) :
    c.MovesBy i { c with queue := q } :=
  .of_same rfl rfl rfl fun ⟨hr, hn, hw⟩ => ⟨hq hr, hn, hw⟩

/-- Strips changed in their places. -/
theorem Copy.MovesBy.of_map {g : Strip → Strip} (hg : ∀ t, (g t).retry = t.retry) :
    c.MovesBy i { c with queue := c.queue.map g } := by
  refine .of_queue fun hr t ht => ?_
  obtain ⟨u, hu, rfl⟩ := List.mem_map.mp ht
  exact hg u ▸ hr u hu

theorem Copy.MovesBy.updateStrip (index : Nat) {f : Strip → Strip} (hf : ∀ t, (f t).retry = t.retry) :
    c.MovesBy i (c.updateStrip index f) :=
  .of_map fun t => by split <;> simp [hf]

/-- Strips removed. -/
theorem Copy.MovesBy.of_filter (p : Strip → Bool) : c.MovesBy i { c with queue := c.queue.filter p } :=
  .of_queue fun hr t ht => hr t (List.mem_filter.mp ht).1

/-- A strip moved to the tail. -/
theorem Copy.MovesBy.requeueStrip (index : Nat) {f : Strip → Strip}
    (hf : ∀ t : Strip, t.retry ≤ Config.maxRetries → (f t).retry ≤ Config.maxRetries) :
    c.MovesBy i (c.requeueStrip index f) := by
  refine .of_queue fun hr t ht => ?_
  obtain ht | ht := List.mem_append.mp ht
  · exact hr t (List.mem_filter.mp ht).1
  · obtain ⟨u, hu, rfl⟩ := List.mem_map.mp ht
    exact hf u (hr u (List.mem_filter.mp hu).1)

/-- Counters changed within their bounds. -/
theorem Copy.MovesBy.of_counters {n : Counters} (hn : c.counters.Bounded → n.Bounded) :
    c.MovesBy i { c with counters := n } :=
  .of_same rfl rfl rfl fun ⟨hr, hc, hw⟩ => ⟨hr, hn hc, hw⟩

/-- A floor deepened (R33, R142). -/
theorem Copy.MovesBy.setFloor (cx cy r : Nat) : c.MovesBy i (c.setFloor cx cy (max (c.floor cx cy) r)) := by
  refine ⟨.inl rfl, .inl fun x y => ?_, id⟩
  rw [Copy.floor_setFloor]
  split
  · next h =>
    have : c.floor x y = c.floor cx cy := by rw [Copy.floor, Copy.floor, h]
    rw [this]
    exact le_max_left _ _
  · exact le_rfl

end

/-- What command i can make of the copies and of the spindles. -/
structure RecordsMove (i : Instr) (s t : State) : Prop where
  copies : ∀ k, (s.copy k).MovesBy i (t.copy k)
  spindles : (∀ k, (s.copy k).Bounded) → (∀ n, (s.spindle n).Bounded) → ∀ n, (t.spindle n).Bounded

section
variable {i : Instr} {s t u : State}

theorem RecordsMove.refl (s : State) : RecordsMove i s s := ⟨fun _ => .refl _, fun _ h => h⟩

theorem RecordsMove.trans (h1 : RecordsMove i s t) (h2 : RecordsMove i t u) : RecordsMove i s u :=
  ⟨fun k => (h1.copies k).trans (h2.copies k),
    fun hc hs => h2.spindles (fun k => (h1.copies k).bounded (hc k)) (h1.spindles hc hs)⟩

theorem RecordsMove.boundsHold (h : RecordsMove i s t) (hs : BoundsHold s) : BoundsHold t := by
  rw [boundsHold_iff] at hs ⊢
  obtain ⟨hc, hn⟩ := hs
  exact ⟨fun k => (h.copies k).bounded (hc k), h.spindles hc hn⟩

/-- No copy and no spindle changed. -/
theorem RecordsMove.same (h : RecordsMove i s t) (hc : u.copies = t.copies) (hs : u.spindles = t.spindles) :
    RecordsMove i s u := by
  refine h.trans ⟨fun k => ?_, fun _ hn n => ?_⟩
  · rw [State.copy, State.copy, hc]
    exact .refl _
  · have := hn n
    rwa [State.spindle, ← hs] at this

theorem RecordsMove.answer (h : RecordsMove i s t) (p : PortId) (c : AnswerCode) (d : List Byte) :
    RecordsMove i s (t.answer p c d) := h.same rfl rfl

/-- An answer at once, the records as they were. -/
theorem RecordsMove.answered (s : State) (p : PortId) (c : AnswerCode) (d : List Byte) :
    RecordsMove i s (s.answer p c d) := (RecordsMove.refl s).answer p c d

theorem RecordsMove.modifyPort (h : RecordsMove i s t) (p : PortId) (f : Port → Port) :
    RecordsMove i s (t.modifyPort p f) := h.same rfl rfl

theorem RecordsMove.latchPlan (h : RecordsMove i s t) (l : PlanLatch) : RecordsMove i s (t.latchPlan l) :=
  h.same rfl rfl

theorem RecordsMove.latchSpindle (h : RecordsMove i s t) (n : SpindleId) (l : SpindleLatch) :
    RecordsMove i s (t.latchSpindle n l) := h.same rfl rfl

theorem RecordsMove.setEngine (h : RecordsMove i s t) (e : Engine) : RecordsMove i s (t.setEngine e) := h.same rfl rfl

theorem RecordsMove.setRelief (h : RecordsMove i s t) (r : Relief) : RecordsMove i s (t.setRelief r) := h.same rfl rfl

theorem RecordsMove.setStaging (h : RecordsMove i s t) (j : Fin 4) (x : Option Slot) :
    RecordsMove i s (t.setStaging j x) := h.same rfl rfl

theorem RecordsMove.latchScan (h : RecordsMove i s t) (l : ScanLatch) : RecordsMove i s (t.latchScan l) :=
  h.same rfl rfl

/-- A spindle changed, its lists and its hold within their bounds again. -/
theorem RecordsMove.modifySpindle (h : RecordsMove i s t) (n : SpindleId) {f : Spindle → Spindle}
    (hf : (∀ k, (t.copy k).Bounded) → (t.spindle n).Bounded → (f (t.spindle n)).Bounded) :
    RecordsMove i s (t.modifySpindle n f) := by
  refine h.trans ⟨fun _ => .refl _, fun hc hs j => ?_⟩
  by_cases hj : j = n
  · rw [hj, State.modifySpindle_spindle_same]
    exact hf hc (hs n)
  · rw [State.modifySpindle_spindle_ne _ _ _ _ hj]
    exact hs j

theorem RecordsMove.setHold (h : RecordsMove i s t) (n : SpindleId) {time : Nat} {o : HoldOrigin}
    (hl : (∀ k, (t.copy k).Bounded) → (t.spindle n).Bounded → holdLegal time o) :
    RecordsMove i s (t.setHold n time o) :=
  (h.modifySpindle n fun hc hn => ⟨⟨hn.issued, hn.departed⟩, hl hc hn⟩).latchSpindle n _

theorem RecordsMove.endHold (h : RecordsMove i s t) (n : SpindleId) : RecordsMove i s (t.endHold n) :=
  (h.modifySpindle n fun _ hn => ⟨⟨hn.issued, hn.departed⟩, holdLegal_ended⟩).latchSpindle n _

theorem RecordsMove.setCopy (h : RecordsMove i s t) (k : CopySlot) {c : Copy} (hc : (t.copy k).MovesBy i c) :
    RecordsMove i s (t.setCopy k c) := by
  refine h.trans ⟨fun j => ?_, fun _ hs => hs⟩
  by_cases hj : j = k
  · rw [hj, State.setCopy_copy_same]
    exact hc
  · rw [State.setCopy_copy_ne _ _ _ _ hj]
    exact .refl _

theorem RecordsMove.modifyCopy (h : RecordsMove i s t) (k : CopySlot) {f : Copy → Copy}
    (hf : (t.copy k).MovesBy i (f (t.copy k))) : RecordsMove i s (t.modifyCopy k f) := h.setCopy k hf

/-- The strips that held strips name changed in their places. -/
theorem RecordsMove.mapNamed (h : RecordsMove i s t) (hs : List Held) {f : Copy → Strip → Strip}
    (hf : ∀ c u, (f c u).retry = u.retry) : RecordsMove i s (t.mapNamed hs f) := by
  refine h.trans ⟨fun k => ?_, fun _ hn => hn⟩
  rw [State.mapNamed_copy]
  exact .of_map fun u => by split <;> simp [hf]

theorem RecordsMove.updateStrip (h : RecordsMove i s t) (key : StripKey) {f : Strip → Strip}
    (hf : ∀ u, (f u).retry = u.retry) : RecordsMove i s (t.updateStrip key f) :=
  h.modifyCopy _ (.updateStrip _ hf)

theorem RecordsMove.restartLeases (h : RecordsMove i s t) (hs : List Held) : RecordsMove i s (t.restartLeases hs) :=
  h.mapNamed hs fun _ _ => rfl

/-- The elements of an issued list changed one by one. -/
theorem Spindle.Bounded.map_issued {sp : Spindle} (h : sp.Bounded) (g : Held → Held) :
    Spindle.Bounded { sp with issued := sp.issued.map g } :=
  ⟨⟨(List.length_map (as := sp.issued) g).trans_le h.issued, h.departed⟩, h.hold⟩

theorem RecordsMove.fenceAll (h : RecordsMove i s t) (n : SpindleId) (hs : List Held) :
    RecordsMove i s (t.fenceAll n hs) :=
  (h.mapNamed hs (f := fun _ u => u.fenced) fun _ _ => rfl).modifySpindle n
    (f := fun sp => { sp with issued := sp.issued.map _ }) fun _ hn => hn.map_issued _

theorem RecordsMove.grantTest (h : RecordsMove i s t) : RecordsMove i s t.grantTest := by
  obtain e | ⟨n, g, u, -, -, -, e⟩ := t.grantTest_cases <;> rw [e]
  · exact h
  · exact (h.modifySpindle n fun _ hn => hn.map_issued _).setEngine _

/-- An element put to the tail of an issued list with room for it (R87). -/
theorem Spindle.Bounded.append_issued {sp : Spindle} (h : sp.Bounded) (hn : sp.issued.length < 2) (g : Held) :
    Spindle.Bounded { sp with issued := sp.issued ++ [g] } :=
  ⟨⟨(List.length_append ..).trans_le hn, h.departed⟩, h.hold⟩

/-- A strip issued to a spindle that held fewer than two (R87, R92). -/
theorem RecordsMove.issueStrip (h : RecordsMove i s t) (n : SpindleId) (k : CopySlot) (u : Strip)
    (hn : (t.spindle n).issued.length < 2) : RecordsMove i s (t.issueStrip n k u) := by
  have hc := h.updateStrip (u.keyIn k) (f := Strip.issuedTo n (t.footprintOf k u) (t.copy k).leaseTime) fun _ => rfl
  exact (hc.setRelief _).modifySpindle n
    (f := fun sp => { sp with issued := sp.issued ++ [_] }) fun _ hb => hb.append_issued hn _

/-- Operations done one after another. -/
theorem RecordsMove.foldl {α : Type} (f : State → α → State) (hf : ∀ s a, RecordsMove i s (f s a)) (l : List α)
    (h : RecordsMove i s t) : RecordsMove i s (l.foldl f t) := by
  induction l generalizing t with
  | nil => exact h
  | cons a l ih => exact ih (h.trans (hf t a))

/-- A request moves the records if its own rule does. -/
theorem RecordsMove.request (p : PortId) (f : State → State) (hf : ∀ v, RecordsMove i v (f v)) :
    RecordsMove i s (s.request p f) := by
  unfold State.request
  split
  · split
    · exact (RecordsMove.refl s).same rfl rfl
    · exact ((RecordsMove.refl s).same (u := s.take p) rfl rfl).trans (hf _)
  · exact (RecordsMove.refl s).same rfl rfl

theorem RecordsMove.requestAnyState (p : PortId) (f : State → State) (hf : ∀ v, RecordsMove i v (f v)) :
    RecordsMove i s (s.requestAnyState p f) := by
  unfold State.requestAnyState
  split
  · exact ((RecordsMove.refl s).same (u := s.endFrame p []) rfl rfl).trans (hf _)
  · exact (RecordsMove.refl s).same rfl rfl

/-- A request that carries a copy slot moves the records if its rule for a good slot does. -/
theorem RecordsMove.onCopy (b : Byte) (f : CopySlot → State → State) (hf : ∀ k v, RecordsMove i v (f k v)) :
    RecordsMove i s (s.onCopy b f) := by
  refine .request _ _ fun v => ?_
  cases slotOf b with
  | none => exact .answered v _ _ _
  | some k => exact hf k v

/-! ### Hand-on work -/

theorem RecordsMove.decideReport (h : RecordsMove i s t) (n : SpindleId) (r : Report) :
    RecordsMove i s (t.decideReport n r) := by
  unfold State.decideReport
  split
  · exact h.answer _ _ _
  · exact h.answer _ _ _
  · split
    · exact h
    · exact (h.modifySpindle n fun _ hn => hn).updateStrip _ fun _ => rfl
  · exact h.modifySpindle n fun _ hn => hn

theorem RecordsMove.perform (h : RecordsMove i s t) (c : Chore) : RecordsMove i s (t.perform c) := by
  cases c with
  | evaluate n =>
    show RecordsMove i s (t.autoPrefetch n)
    obtain ⟨e, -⟩ | ⟨k, u, hp, e, -⟩ := t.autoPrefetch_cases n <;> rw [e]
    · exact h
    · obtain ⟨g, hg, -⟩ := State.prefetched_some hp
      exact h.issueStrip n k u (by simp [hg])
  | grant => exact h.grantTest
  | report n =>
    show RecordsMove i s (t.decideWaiting n)
    unfold State.decideWaiting
    split
    · exact h
    · exact (h.modifySpindle n fun _ hn => hn).decideReport n _

theorem RecordsMove.handOn (h : RecordsMove i s t) (ts : List Chore) : RecordsMove i s (t.handOn ts) :=
  t.handOn_induct (P := RecordsMove i s) ts (h.same rfl rfl) fun _ c _ hu => hu.perform c

/-! ### Strips leaving -/

/-- The oldest of five departed strips leaves first (R139). -/
theorem Spindle.depart_length {sp : Spindle} (h : sp.departed.length ≤ 4) (d : Departed) :
    (sp.depart d).departed.length ≤ 4 := by
  rw [Spindle.depart, List.length_drop, List.length_append, List.length_singleton]
  omega

theorem Spindle.Bounded.loseStrip {sp : Spindle} (h : sp.Bounded) (k : CopySlot) (t : Strip) (record : Bool) :
    (sp.loseStrip k t record).Bounded := by
  have hi : (sp.issued.filter fun g => decide (g.key ≠ t.keyIn k)).length ≤ 2 :=
    (List.length_filter_le _ _).trans h.issued
  cases record
  · exact ⟨⟨hi, h.departed⟩, h.hold⟩
  · exact ⟨⟨hi, Spindle.depart_length h.departed _⟩, h.hold⟩

theorem RecordsMove.leave (h : RecordsMove i s t) (k : CopySlot) (r : Strip) (record : Bool) :
    RecordsMove i s (t.leave k r record) := by
  have h1 : RecordsMove i s (t.releaseTiles r) := h.same (t.releaseTiles_copies r) (t.releaseTiles_spindles r)
  have h2 : RecordsMove i s ((t.releaseTiles r).releaseHolder k r record) := by
    unfold State.releaseHolder
    split
    · exact h1.modifySpindle _ fun _ hn => hn.loseStrip k r record
    · exact h1
  exact (h2.same (State.abandon_copies _ _) (State.abandon_spindles _ _)).modifyCopy k (.updateStrip _ fun _ => rfl)

theorem RecordsMove.leaveAndGrant (h : RecordsMove i s t) (k : CopySlot) (r : Strip) :
    RecordsMove i s (t.leaveAndGrant k r) := by
  obtain ⟨-, e⟩ | ⟨-, e⟩ := t.leaveAndGrant_cases k r <;> rw [e]
  · exact (h.leave k r true).grantTest
  · exact h.leave k r true

/-- A pass completed, where the command may make the copy READY (R27, R81). -/
theorem RecordsMove.completePass (h : RecordsMove i s t) (k : CopySlot)
    (hm : copyMove (t.copy k).state .ready i = true) : RecordsMove i s (t.completePass k) :=
  (h.modifyCopy k (.of_move hm rfl rfl id)).latchPlan _

theorem RecordsMove.testPass (h : RecordsMove i s t) (k : CopySlot) (hm : copyMove .cutting .ready i = true) :
    RecordsMove i s (t.testPass k) := by
  unfold State.testPass
  dsimp only
  split
  · next hc => exact h.completePass k (hc.1 ▸ hm)
  · exact h

end

end Sys2Proof.Machine

namespace Sys2Proof.Machine

/-! ## Every command moves copies and spindles so -/

/-- A command answers, and moves the copies and the spindles by no more than `RecordsMove`. -/
def MovesRecords (i : Instr) : Prop := ∀ s, ∃ t, exec i s = .next t ∧ RecordsMove i s t

/-! ### Ports, frames, mailboxes -/

theorem RecordsMove.poll {i : Instr} (s : State) (p : PortId) (phase : PollPhase) :
    RecordsMove i s (s.poll p phase) := by
  cases phase <;> unfold State.poll <;> dsimp only <;> split <;> exact (RecordsMove.refl s).modifyPort p _

theorem movesRecords_fetch (p : PortId) (crcGood : Bool) (clocked : Nat) : MovesRecords (.fetch p crcGood clocked) := by
  refine fun s => ⟨_, rfl, ?_⟩
  split
  · exact .poll s p .whole
  · split
    · dsimp only
      split
      · exact ((RecordsMove.refl s).modifyPort p _).modifyPort p _
      · exact (RecordsMove.refl s).modifyPort p _
    · exact (RecordsMove.refl s).modifyPort p _

theorem movesRecords_badFrame (p : PortId) (flaw : FrameFlaw) : MovesRecords (.badFrame p flaw) := by
  refine fun _ => ⟨_, rfl, .request _ _ fun v => .answer ?_ _ _ _⟩
  split
  · exact (RecordsMove.refl v).modifyPort _ _
  · exact .refl v

theorem movesRecords_setAttention (p : PortId) (mask : Word) (term : Byte) :
    MovesRecords (.setAttention p mask term) := by
  refine fun _ => ⟨_, rfl, .request _ _ fun v => ?_⟩
  split
  · exact .answered v _ _ _
  · exact ((RecordsMove.refl v).modifyPort _ _).answer _ _ _

theorem movesRecords_postOrder (spindle : Byte) (content : BitVec 64) : MovesRecords (.postOrder spindle content) := by
  refine fun _ => ⟨_, rfl, .request _ _ fun v => ?_⟩
  split
  · exact .answered v _ _ _
  · split
    · exact .answered v _ _ _
    · exact (((RecordsMove.refl v).modifySpindle _ fun _ hn => hn).latchSpindle _ _).answer _ _ _

theorem movesRecords_postNote (n : SpindleId) (content : BitVec 64) : MovesRecords (.postNote n content) := by
  refine fun _ => ⟨_, rfl, .request _ _ fun v => ?_⟩
  split
  · exact .answered v _ _ _
  · exact (((RecordsMove.refl v).modifySpindle _ fun _ hn => hn).latchPlan _).answer _ _ _

theorem movesRecords_readOrder (n : SpindleId) : MovesRecords (.readOrder n) :=
  fun _ => ⟨_, rfl, .request _ _ fun v => ((RecordsMove.refl v).modifySpindle _ fun _ hn => hn).answer _ _ _⟩

theorem movesRecords_readNote (spindle : Byte) : MovesRecords (.readNote spindle) := by
  refine fun _ => ⟨_, rfl, .request _ _ fun v => ?_⟩
  split
  · exact .answered v _ _ _
  · exact ((RecordsMove.refl v).modifySpindle _ fun _ hn => hn).answer _ _ _

/-! ### Resets -/

theorem Spindle.Bounded.portReset {sp : Spindle} (h : sp.Bounded) : sp.portReset.Bounded :=
  ⟨⟨(List.length_map ..).trans_le h.issued, h.departed⟩, holdLegal_ended⟩

theorem RecordsMove.resetSpindle {i : Instr} (s : State) (n : SpindleId) : RecordsMove i s (s.resetSpindle n) := by
  unfold State.resetSpindle
  dsimp only
  refine .grantTest ?_
  have h := (((RecordsMove.refl (i := i) s).fenceAll n (s.issuedStrips n)).modifySpindle n
    (f := Spindle.portReset) fun _ hn => hn.portReset).setEngine
    (((s.fenceAll n (s.issuedStrips n)).modifySpindle n Spindle.portReset).engine.abandonFor n)
  split
  · exact h
  · exact h.latchPlan _

theorem RecordsMove.freeStaging {i : Instr} (s : State) (j : Fin 4) : RecordsMove i s (s.freeStaging j) := by
  unfold State.freeStaging
  split
  · exact (RecordsMove.refl s).same rfl rfl
  · exact .refl s

theorem movesRecords_portReset (p : PortId) : MovesRecords (.portReset p) := by
  refine fun _ => ⟨_, rfl, .requestAnyState _ _ fun v => ?_⟩
  have h : RecordsMove (.portReset p) v (v.resetPort p) := (RecordsMove.refl v).modifyPort p _
  cases p with
  | plan => exact h
  | scan => exact h.foldl _ (fun s j => .freeStaging s j) _
  | spindle n => exact h.trans (.resetSpindle _ n)

theorem Strip.warmReset_retry (t : Strip) : t.warmReset.retry = t.retry := by
  unfold Strip.warmReset
  split <;> rfl

/-- A CLEARING copy is freed and a CUTTING one paused; the others stay in their state (R46). -/
theorem Copy.MovesBy.warmReset (c : Copy) : c.MovesBy .warmReset c.warmReset := by
  have kept : c.MovesBy .warmReset { c with queue := c.queue.map Strip.warmReset } := .of_map Strip.warmReset_retry
  unfold Copy.warmReset
  dsimp only
  split
  · next h => exact .of_unread (by rw [h]; rfl) (.inl rfl) Copy.free_bounded
  · next h => exact kept.trans (.of_move (show copyMove c.state .paused _ = true by rw [h]; rfl) rfl rfl id)
  · exact kept
  · exact kept
  · exact kept

theorem RecordsMove.warmReset (s : State) : RecordsMove .warmReset s s.warmReset := by
  refine ⟨fun k => ?_, fun _ hs n => ?_⟩
  · show (s.copies.get k).MovesBy _ ((s.copies.map Copy.warmReset).get k)
    rw [Six.get_map]
    exact .warmReset _
  · show ((s.spindles.map Spindle.warmReset).get n).Bounded
    rw [Six.get_map]
    exact (hs n).portReset

theorem movesRecords_warmReset : MovesRecords .warmReset :=
  fun _ => ⟨_, rfl, .requestAnyState _ _ .warmReset⟩

/-- Every block at its power-on values: a command that does this may free any copy. -/
theorem RecordsMove.holdReset {i : Instr} (s : State) (hi : ∀ a, copyMove a .free i = true) :
    RecordsMove i s s.holdReset := by
  refine ⟨fun k => ?_, fun _ _ n => ?_⟩
  · have e : s.holdReset.copy k = Copy.free := State.reset_copy k
    rw [e]
    exact .of_unread (hi _) (.inl rfl) Copy.free_bounded
  · have e : s.holdReset.spindle n = Spindle.fresh := State.reset_spindle n
    rw [e]
    exact ⟨⟨Nat.zero_le _, Nat.zero_le _⟩, holdLegal_ended⟩

theorem movesRecords_powerOn (resetHigh : Bool) : MovesRecords (.powerOn resetHigh) := by
  refine fun s => ⟨_, rfl, ?_⟩
  have h : RecordsMove (.powerOn resetHigh) s s.holdReset := .holdReset s fun _ => rfl
  split
  · exact h.same rfl rfl
  · exact h

theorem movesRecords_resetPin (periods : Nat) : MovesRecords (.resetPin periods) := by
  refine fun s => ⟨_, rfl, ?_⟩
  split
  · exact .holdReset s fun _ => rfl
  · exact .refl s

theorem movesRecords_resetRelease : MovesRecords .resetRelease := by
  refine fun s => ⟨_, rfl, ?_⟩
  split
  · exact (RecordsMove.refl s).same rfl rfl
  · exact .refl s

/-! ### Time -/

theorem RecordsMove.leaseTick {i : Instr} (s : State) (n : SpindleId) : RecordsMove i s (s.leaseTick n) := by
  have h : RecordsMove i s (s.advanceLeases n) :=
    (RecordsMove.refl s).mapNamed _ (f := fun _ t => t.tickLease) fun _ _ => rfl
  unfold State.leaseTick State.expire
  split
  · exact h
  · exact ((h.fenceAll n _).latchSpindle n _).latchPlan _

/-- A hold that does not end at a tick stays active (R121, R133). -/
theorem RecordsMove.holdTick {i : Instr} (s : State) (n : SpindleId) : RecordsMove i s (s.holdTick n) := by
  unfold State.holdTick
  split
  · exact ((RecordsMove.refl s).endHold n).handOn _
  · next h =>
    refine (RecordsMove.refl s).modifySpindle n fun _ hn => ⟨⟨hn.issued, hn.departed⟩, ?_⟩
    obtain ⟨hr, -⟩ := hn.hold
    exact ⟨(Nat.sub_le _ _).trans hr, fun _ => Nat.sub_pos_of_lt (not_le.mp h)⟩

theorem movesRecords_millisecondTick (n : SpindleId) : MovesRecords (.millisecondTick n) := by
  refine fun s => ⟨_, rfl, ?_⟩
  split
  · exact .holdTick s n
  · exact .leaseTick s n

theorem movesRecords_leaseExpiry (n : SpindleId) : MovesRecords (.leaseExpiry n) := by
  refine fun s => ⟨_, rfl, ?_⟩
  split
  · exact .leaseTick s n
  · exact .refl s

theorem movesRecords_holdCountdownEnd (n : SpindleId) : MovesRecords (.holdCountdownEnd n) := by
  refine fun s => ⟨_, rfl, ?_⟩
  split
  · exact .holdTick s n
  · exact .refl s

/-! ### The relief and its tiles -/

theorem movesRecords_openTile (tx ty : Byte) : MovesRecords (.openTile tx ty) := by
  refine fun _ => ⟨_, rfl, .request _ _ fun v => ?_⟩
  dsimp only
  split
  · exact .answered v _ _ _
  · split
    · exact .answered v _ _ _
    · split
      · exact .answered v _ _ _
      · exact .answered v _ _ _
      · split
        · exact .answered v _ _ _
        · exact (RecordsMove.refl v).same rfl rfl
      · split
        · exact .answered v _ _ _
        · split
          · exact .answered v _ _ _
          · exact (RecordsMove.refl v).same rfl rfl

theorem movesRecords_rescanPreloadCompletion : MovesRecords .rescanPreloadCompletion := by
  refine fun s => ⟨_, rfl, ?_⟩
  split
  · exact .refl s
  · split
    · exact .refl s
    · exact (RecordsMove.refl s).same rfl rfl

theorem movesRecords_putSamples (tx ty : Byte) (offset : Word) (samples : List Word) :
    MovesRecords (.putSamples tx ty offset samples) := by
  refine fun _ => ⟨_, rfl, .request _ _ fun v => ?_⟩
  split
  · exact .answered v _ _ _
  · split
    · exact .answered v _ _ _
    · exact (RecordsMove.refl v).same rfl rfl

theorem movesRecords_viewStaging (tx ty : Byte) (offset : Word) (count : Byte) :
    MovesRecords (.viewStaging tx ty offset count) := by
  refine fun _ => ⟨_, rfl, .request _ _ fun v => ?_⟩
  split
  · exact .answered v _ _ _
  · split
    · exact .answered v _ _ _
    · exact .answered v _ _ _

theorem movesRecords_sealTile (tx ty : Byte) (crc : Word) : MovesRecords (.sealTile tx ty crc) := by
  refine fun _ => ⟨_, rfl, .request _ _ fun v => ?_⟩
  split
  · exact .answered v _ _ _
  · split
    · exact .answered v _ _ _
    · dsimp only
      split
      · exact .answered v _ _ _
      · exact (RecordsMove.refl v).same rfl rfl

theorem RecordsMove.cancelScanHolds {i : Instr} {s t : State} (h : RecordsMove i s t) :
    RecordsMove i s t.cancelScanHolds := by
  refine h.foldl _ (fun s n => ?_) _
  split
  · exact (RecordsMove.refl s).endHold n
  · exact .refl s

theorem movesRecords_sealCompletion : MovesRecords .sealCompletion := by
  refine fun s => ⟨_, rfl, ?_⟩
  split
  · exact .refl s
  · split
    · exact .refl s
    · exact ((((((RecordsMove.refl s).setRelief _).setStaging _ none).answer _ _ _).latchScan _).latchPlan
        _).cancelScanHolds.handOn _

theorem movesRecords_dropTile (tx ty : Byte) : MovesRecords (.dropTile tx ty) := by
  refine fun _ => ⟨_, rfl, .request _ _ fun v => ?_⟩
  split
  · exact .answered v _ _ _
  · exact (RecordsMove.freeStaging v _).answer _ _ _

theorem movesRecords_defineRelief (mw mh : Word) : MovesRecords (.defineRelief mw mh) := by
  refine fun _ => ⟨_, rfl, .request _ _ fun v => ?_⟩
  dsimp only
  split
  · exact .answered v _ _ _
  · split
    · exact .answered v _ _ _
    · exact ((RecordsMove.refl v).setRelief _).answer _ _ _

theorem movesRecords_readRelief (iy ix0 : Word) (count : Byte) : MovesRecords (.readRelief iy ix0 count) := by
  refine fun _ => ⟨_, rfl, .request _ _ fun v => ?_⟩
  dsimp only
  split
  · exact .answered v _ _ _
  · split
    · exact .answered v _ _ _
    · exact .answered v _ _ _

/-! ### Copies -/

theorem definedCopy_bounded (a : CopyArgs) : (definedCopy a).Bounded :=
  ⟨fun _ ht => absurd ht List.not_mem_nil, Counters.zero_bounded, Nat.le_of_lt_succ a.waitHold.isLt⟩

theorem movesRecords_defineCopy (args : CopyArgs) : MovesRecords (.defineCopy args) := by
  refine fun _ => ⟨_, rfl, .onCopy _ _ fun k v => ?_⟩
  split
  · exact .answered v _ _ _
  · split
    · exact .answered v _ _ _
    · next hfree =>
      split
      · exact .answered v _ _ _
      · split
        · exact .answered v _ _ _
        · refine ((RecordsMove.refl v).setCopy k (.of_unread ?_ (.inr rfl) (definedCopy_bounded args))).answer _ _ _
          rw [not_not.mp hfree]
          rfl

theorem movesRecords_clearCompletion (slot : CopySlot) : MovesRecords (.clearCompletion slot) := by
  refine fun s => ⟨_, rfl, ?_⟩
  split
  · next h =>
    exact ((RecordsMove.refl s).modifyCopy slot (f := fun c => { c with state := .ready })
      (.of_move (by rw [h]; rfl) rfl rfl id)).latchPlan _
  · exact .refl s

theorem RecordsMove.withdraw {i : Instr} (s : State) (k : CopySlot) (t : Strip) : RecordsMove i s (s.withdraw k t) := by
  unfold State.withdraw
  split
  · exact ((RecordsMove.refl s).leave k t true).latchSpindle _ _
  · exact .refl s

theorem RecordsMove.withdrawAll {i : Instr} (s : State) (k : CopySlot) : RecordsMove i s (s.withdrawAll k) := by
  unfold State.withdrawAll
  dsimp only
  split
  · exact .refl s
  · have h : RecordsMove i s { s with choices := s.choices + 1 } := (RecordsMove.refl s).same rfl rfl
    exact (h.foldl _ (fun v r => .withdraw v k r) _).handOn _

theorem movesRecords_setPass (slot kind : Byte) (stepDown allowance : Word) :
    MovesRecords (.setPass slot kind stepDown allowance) := by
  refine fun _ => ⟨_, rfl, .onCopy _ _ fun k v => ?_⟩
  dsimp only
  split
  · exact .answered v _ _ _
  · split
    · exact .answered v _ _ _
    · have h (p : Pass) (c : AnswerCode) (d : List Byte) :
          RecordsMove (.setPass slot kind stepDown allowance) v
            ((v.modifyCopy k fun c => c.setPass p).answer .plan c d) :=
        ((RecordsMove.refl v).modifyCopy k (.of_same rfl rfl rfl id)).answer _ _ _
      split
      · exact (h _ _ _).trans (.withdrawAll _ k)
      · exact h _ _ _

theorem movesRecords_startPass (slot : Byte) : MovesRecords (.startPass slot) := by
  refine fun _ => ⟨_, rfl, .onCopy _ _ fun k v => ?_⟩
  dsimp only
  split
  · exact .answered v _ _ _
  · next h =>
    split
    · exact .answered v _ _ _
    · exact ((RecordsMove.refl v).modifyCopy k (f := fun c => { c with state := .cutting })
        (.of_move (by rw [not_not.mp h]; rfl) rfl rfl id)).answer _ _ _

theorem movesRecords_pauseCopy (slot : Byte) : MovesRecords (.pauseCopy slot) := by
  refine fun _ => ⟨_, rfl, .onCopy _ _ fun k v => ?_⟩
  split
  · exact .answered v _ _ _
  · next h =>
    exact ((RecordsMove.refl v).modifyCopy k (f := fun c => { c with state := .paused })
      (.of_move (by rw [not_not.mp h]; rfl) rfl rfl id)).answer _ _ _

theorem movesRecords_resumeCopy (slot : Byte) : MovesRecords (.resumeCopy slot) := by
  refine fun _ => ⟨_, rfl, .onCopy _ _ fun k v => ?_⟩
  dsimp only
  split
  · exact .answered v _ _ _
  · next h =>
    split
    · exact ((RecordsMove.refl v).completePass k (by rw [not_not.mp h]; rfl)).answer _ _ _
    · exact (((RecordsMove.refl v).modifyCopy k (f := fun c => { c with state := .cutting })
        (.of_move (by rw [not_not.mp h]; rfl) rfl rfl id)).answer _ _ _).handOn _

theorem Spindle.Bounded.forgetCopy {sp : Spindle} (h : sp.Bounded) (k : CopySlot) : (sp.forgetCopy k).Bounded :=
  ⟨⟨h.issued, (List.length_filter_le _ _).trans h.departed⟩, h.hold⟩

/-- A copy freed: every strip that was held has left, and the spindles forget the copy (R40). -/
theorem RecordsMove.freeCopy (slot : Byte) (s : State) (k : CopySlot) :
    RecordsMove (.closeCopy slot) s (s.freeCopy k) := by
  have h := (RecordsMove.refl (i := .closeCopy slot) s).foldl (fun s t => s.leave k t false)
    (fun v r => (RecordsMove.refl v).leave k r false) ((s.copy k).queue.filter fun t => decide (t.state ≠ .planned))
  refine (h.setCopy k (.of_unread rfl (.inl rfl) Copy.free_bounded)).trans ⟨fun _ => .refl _, fun _ hs n => ?_⟩
  have e : (s.freeCopy k).spindle n = (State.spindle _ n).forgetCopy k := Six.get_map _ _ _
  rw [e]
  exact (hs n).forgetCopy k

theorem movesRecords_closeCopy (slot : Byte) : MovesRecords (.closeCopy slot) := by
  refine fun _ => ⟨_, rfl, .onCopy _ _ fun k v => ?_⟩
  dsimp only
  split
  · exact .answered v _ _ _
  · split
    · exact .answered v _ _ _
    · have h := (RecordsMove.freeCopy slot v k).answer .plan .ok []
      split
      · exact h.grantTest
      · exact h

theorem movesRecords_bindSpindle (spindle slot : Byte) : MovesRecords (.bindSpindle spindle slot) := by
  refine fun _ => ⟨_, rfl, .request _ _ fun v => ?_⟩
  split
  · split
    · exact .answered v _ _ _
    · split
      · exact .answered v _ _ _
      · exact ((RecordsMove.refl v).modifySpindle _ fun _ hn => hn).answer _ _ _
  · exact .answered v _ _ _

theorem RecordsMove.fenceForUnbind {i : Instr} (s : State) (n : SpindleId) : RecordsMove i s (s.fenceForUnbind n) := by
  unfold State.fenceForUnbind
  dsimp only
  split
  · exact .refl s
  · exact (((RecordsMove.refl s).fenceAll n _).latchSpindle n _).latchPlan _

theorem movesRecords_unbindSpindle (spindle : Byte) : MovesRecords (.unbindSpindle spindle) := by
  refine fun _ => ⟨_, rfl, .request _ _ fun v => ?_⟩
  split
  · exact .answered v _ _ _
  · exact ((RecordsMove.fenceForUnbind v _).modifySpindle _ fun _ hn => hn).answer _ _ _

theorem movesRecords_readFloors (slot : Byte) (cy c0 : Word) (count : Byte) :
    MovesRecords (.readFloors slot cy c0 count) := by
  refine fun _ => ⟨_, rfl, .onCopy _ _ fun k v => ?_⟩
  dsimp only
  split
  · exact .answered v _ _ _
  · split
    · exact .answered v _ _ _
    · exact .answered v _ _ _

theorem movesRecords_readCopy (slot zero : Byte) : MovesRecords (.readCopy slot zero) := by
  refine fun _ => ⟨_, rfl, .onCopy _ _ fun k v => .answer ?_ _ _ _⟩
  split
  · exact (RecordsMove.refl v).modifyCopy k (.of_counters fun _ => Counters.zero_bounded)
  · exact .refl v

/-! ### Plans -/

/-- The descriptors of a plan put PLANNED strips to the tail, with no retry behind them (R65, R69). -/
theorem Copy.MovesBy.takeDescriptors {i : Instr} (c : Copy) (ds : List Descriptor) :
    c.MovesBy i (takeDescriptors c ds).1 := by
  unfold Machine.takeDescriptors
  generalize ({ accepted := 0, clipped := 0, outOfExtent := 0, overflow := 0 } : LoadCounts) = n
  induction ds generalizing c n with
  | nil => exact .refl c
  | cons d ds ih =>
    refine Copy.MovesBy.trans (b := (takeDescriptor (c, n) d).1) ?_ (ih _ _)
    obtain e | ⟨length, e⟩ := takeDescriptor_cases c n d <;> rw [e]
    · exact .refl c
    · refine .of_queue fun hr t ht => ?_
      obtain ht | ht := List.mem_append.mp ht
      · exact hr t ht
      · rw [List.mem_singleton.mp ht]
        exact Nat.zero_le _

theorem RecordsMove.afterLoad {i : Instr} {s t : State} (h : RecordsMove i s t) (k : CopySlot) (accepted : Nat)
    (closed : Bool) (hm : copyMove .cutting .ready i = true) : RecordsMove i s (t.afterLoad k accepted closed) := by
  have ht : RecordsMove i s (if closed then t.testPass k else t) := by
    split
    · exact h.testPass k hm
    · exact h
  unfold State.afterLoad
  dsimp only
  split
  · split
    · exact ht.handOn _
    · exact ht
  · exact h

theorem movesRecords_loadPlan (slot : Byte) (ds : List Descriptor) : MovesRecords (.loadPlan slot ds) := by
  refine fun _ => ⟨_, rfl, ?_⟩
  split
  · exact .request _ _ fun v => .answered v _ _ _
  · refine .onCopy _ _ fun k v => ?_
    dsimp only
    split
    · exact .answered v _ _ _
    · split
      · exact .answered v _ _ _
      · split
        · exact .answered v _ _ _
        · refine .afterLoad (.answer (.setCopy (.refl v) k ?_) _ _ _) k _ _ rfl
          exact (Copy.MovesBy.takeDescriptors _ ds).trans (.of_same rfl rfl rfl id)

theorem movesRecords_clearPlan (slot : Byte) : MovesRecords (.clearPlan slot) := by
  refine fun _ => ⟨_, rfl, .onCopy _ _ fun k v => ?_⟩
  dsimp only
  split
  · exact .answered v _ _ _
  · refine .answer (.setCopy (.refl v) k ?_) _ _ _
    exact (Copy.MovesBy.of_filter _).trans (.of_same rfl rfl rfl id)

theorem movesRecords_readStrip (slot selector : Byte) (value : Word) :
    MovesRecords (.readStrip slot selector value) := by
  refine fun _ => ⟨_, rfl, .onCopy _ _ fun k v => ?_⟩
  split
  · exact .answered v _ _ _
  · split
    · exact .answered v _ _ _
    · dsimp only
      split
      · exact .answered v _ _ _
      · split
        · exact .answered v _ _ _
        · exact .answered v _ _ _

/-! ### Issue, engine and queues -/

/-- The hold of a WAIT answer is the copy's wait hold or the longer one that runs (R95). -/
theorem RecordsMove.scanHold {i : Instr} {s t : State} (h : RecordsMove i s t) (n : SpindleId) {w : Nat}
    (hw : (∀ k, (t.copy k).Bounded) → w ≤ 65535) : RecordsMove i s (t.scanHold n w) := by
  unfold State.scanHold
  split
  · exact h
  · next h0 =>
    refine h.setHold n fun hc hn => ⟨max_le hn.hold.1 (hw hc), fun _ => ?_⟩
    exact lt_of_lt_of_le (Nat.pos_of_ne_zero h0) (le_max_right _ _)

theorem RecordsMove.waitForScan {i : Instr} (s : State) (n : SpindleId) (k : CopySlot) (key : TileKey) :
    RecordsMove i s (s.waitForScan n k key) := by
  have hc : (s.offerWanted key).copies = s.copies := by
    unfold State.offerWanted
    split <;> rfl
  have hs : (s.offerWanted key).spindles = s.spindles := by
    unfold State.offerWanted
    split <;> rfl
  unfold State.waitForScan
  refine .answer (.scanHold ((RecordsMove.refl s).same hc hs) n fun hb => ?_) _ _ _
  obtain ⟨-, -, hw⟩ := hb k
  rwa [State.copy, hc] at hw

theorem RecordsMove.noStrip {i : Instr} (s : State) (n : SpindleId) (k : CopySlot) :
    RecordsMove i s (s.noStrip n k) := by
  unfold State.noStrip
  split
  · exact .answered s _ _ _
  · split
    · exact .answered s _ _ _
    · split
      · exact .answered s _ _ _
      · exact .waitForScan s n k _

theorem RecordsMove.takeFrom {i : Instr} (s : State) (n : SpindleId) (k : CopySlot)
    (hn : (s.spindle n).issued.length < 2) : RecordsMove i s (s.takeFrom n k) := by
  unfold State.takeFrom
  split
  · exact (((RecordsMove.refl s).answer _ _ _).issueStrip n k _ hn).grantTest
  · exact .noStrip s n k

theorem movesRecords_takeStrip (n : SpindleId) : MovesRecords (.takeStrip n) := by
  refine fun _ => ⟨_, rfl, .request _ _ fun v => ?_⟩
  dsimp only
  split
  · exact .answered v _ _ _
  · split
    · exact .answered v _ _ _
    · split
      · exact .answered v _ _ _
      · next hn =>
        split
        · exact .answered v _ _ _
        · exact .takeFrom v n _ (not_le.mp hn)
    · exact .answered v _ _ _
    · exact .answered v _ _ _
    · exact .answered v _ _ _

theorem movesRecords_setPrefetch (n : SpindleId) (threshold : Word) : MovesRecords (.setPrefetch n threshold) :=
  fun _ => ⟨_, rfl, .request _ _ fun v =>
    (((RecordsMove.refl v).modifySpindle n fun _ hn => hn).answer _ _ _).handOn _⟩

theorem Counters.Bounded.countCell {c : Counters} (h : c.Bounded) (ct : CellTarget) : (c.countCell ct).Bounded := by
  obtain ⟨h1, h2, h3, h4, -, -⟩ := h
  exact ⟨h1, h2, h3, h4, raiseCounter_le _ _, raiseCounter_le _ _⟩

theorem RecordsMove.placeCell {i : Instr} (s : State) (c : Computation) (g : Geometry) :
    RecordsMove i s (s.placeCell c g) := by
  have h1 := (RecordsMove.refl (i := i) s).modifyCopy c.key.copy
    (f := fun cp => { cp with counters := cp.counters.countCell (s.computeTarget c g.row) })
    (.of_counters fun h => h.countCell _)
  have h2 (e : Entry) := h1.modifySpindle c.holder (f := fun sp => { sp with queue := sp.queue ++ [e] }) fun _ hn => hn
  unfold State.placeCell
  dsimp only
  refine .setEngine ?_ _
  split
  · exact (h2 _).latchSpindle _ _
  · exact h2 _

theorem movesRecords_computeCell : MovesRecords .computeCell := by
  refine fun s => ⟨_, rfl, ?_⟩
  split
  · exact .refl s
  · next c _ =>
    split
    · exact .refl s
    · next t _ =>
      have h : RecordsMove .computeCell s (s.placeCell c t.geometry) := .placeCell s c t.geometry
      dsimp only
      split
      · exact (h.modifySpindle _ (f := fun sp => sp.setStatus c.key fun _ => .complete)
          fun _ hn => hn.map_issued _).handOn _
      · exact h

theorem movesRecords_drawTargets (n : SpindleId) (count : Byte) : MovesRecords (.drawTargets n count) := by
  refine fun _ => ⟨_, rfl, .request _ _ fun v => ?_⟩
  split
  · exact .answered v _ _ _
  · have h (x : Nat) (c : AnswerCode) (d : List Byte) : RecordsMove (.drawTargets n count) v
        ((v.modifySpindle n fun sp => { sp with readPos := sp.readPos + x }).answer (.spindle n) c d) :=
      ((RecordsMove.refl v).modifySpindle n fun _ hn => hn).answer _ _ _
    dsimp only
    split
    · exact h _ _ _
    · exact ((h _ _ _).restartLeases _).handOn _

theorem movesRecords_rewindStrip (n : SpindleId) : MovesRecords (.rewindStrip n) := by
  refine fun _ => ⟨_, rfl, .request _ _ fun v => ?_⟩
  split
  · exact .answered v _ _ _
  · split
    · exact (((RecordsMove.refl v).modifySpindle n fun _ hn => hn).restartLeases _).answer _ _ _
    · exact .answered v _ _ _

theorem movesRecords_renew (n : SpindleId) : MovesRecords (.renew n) :=
  fun _ => ⟨_, rfl, .request _ _ fun v => ((RecordsMove.refl v).restartLeases _).answer _ _ _⟩

/-! ### Fences and holds -/

theorem movesRecords_releaseFence (slot : Byte) (index : Word) (action : Byte) :
    MovesRecords (.releaseFence slot index action) := by
  have release (v : State) (k : CopySlot) (t : Strip) (act : FenceAction) :
      RecordsMove (.releaseFence slot index action) v (v.releaseStrip k t act) := by
    have hl : RecordsMove (.releaseFence slot index action) v (v.leaveAndGrant k t) :=
      (RecordsMove.refl v).leaveAndGrant k t
    unfold State.releaseStrip
    refine .handOn (.answer ?_ _ _ _) _
    cases act with
    | requeue => exact hl.modifyCopy k (f := fun c => c.requeueStrip t.index _) (.requeueStrip _ fun _ h => h)
    | discard => exact (hl.modifyCopy k (.of_filter _)).testPass k rfl
  refine fun _ => ⟨_, rfl, .request _ _ fun v => ?_⟩
  split
  · split
    · exact .answered v _ _ _
    · dsimp only
      split
      · exact .answered v _ _ _
      · split
        · exact .answered v _ _ _
        · split
          · exact .answered v _ _ _
          · split
            · exact .answered v _ _ _
            · exact release v _ _ _
  · exact .answered v _ _ _

theorem movesRecords_holdSpindle (spindle : Byte) (time : Word) : MovesRecords (.holdSpindle spindle time) := by
  refine fun _ => ⟨_, rfl, .request _ _ fun v => ?_⟩
  split
  · exact .answered v _ _ _
  · split
    · exact ((RecordsMove.refl v).setHold _ (o := .plan) fun _ _ => ⟨Nat.le_of_lt_succ time.isLt, nofun⟩).answer _ _ _
    · split
      · exact (((RecordsMove.refl v).endHold _).answer _ _ _).handOn _
      · exact .answered v _ _ _

/-! ### Cut reports -/

theorem movesRecords_reportCut (n : SpindleId) (slot : Byte) (index : Word) (issue : Byte) (floors : List Depth) :
    MovesRecords (.reportCut n slot index issue floors) := by
  refine fun _ => ⟨_, rfl, .request _ _ fun v => ?_⟩
  dsimp only
  split
  · exact (RecordsMove.refl v).modifySpindle n fun _ hn => hn
  · exact (RecordsMove.refl v).decideReport n _

theorem RecordsMove.mergeOne {i : Instr} (s : State) (n : SpindleId) (m : Merge) (r : Nat) :
    RecordsMove i s (s.mergeOne n m r) :=
  ((RecordsMove.refl s).setCopy m.key.copy (.setFloor _ _ r)).modifySpindle n
    (f := fun sp => { sp with merge := some _ }) fun _ hn => hn

/-- A strip requeued by a merge has been requeued so at most three times (R79, R146). -/
theorem Merge.outcome_requeued {m : Merge} {retry r : Nat} (h : m.outcome retry = .requeued r) :
    r ≤ Config.maxRetries := by
  unfold Merge.outcome at h
  split at h
  · cases h
  · split at h
    · cases h
    · split at h
      · cases h
        assumption
      · cases h

theorem Counters.Bounded.countMerge {c : Counters} (h : c.Bounded) (m : Merge) : (c.countMerge m).Bounded := by
  obtain ⟨-, -, -, h4, h5, h6⟩ := h
  exact ⟨raiseCounter_le _ _, raiseCounter_le _ _, raiseCounter_le _ _, h4, h5, h6⟩

theorem Counters.Bounded.countStuck {c : Counters} (h : c.Bounded) :
    Counters.Bounded { c with stuck := raiseCounter c.stuck 1 } := by
  obtain ⟨h1, h2, h3, -, h5, h6⟩ := h
  exact ⟨h1, h2, h3, raiseCounter_le _ _, h5, h6⟩

section
variable {n : SpindleId} {s t : State}

theorem RecordsMove.settle (h : RecordsMove (.mergeCell n) s t) (k : CopySlot) (r : Strip) (o : MergeOutcome)
    (ho : ∀ x, o = .requeued x → x ≤ Config.maxRetries) : RecordsMove (.mergeCell n) s (t.settle k r o) := by
  have hl := h.leave k r true
  cases o with
  | none => exact h
  | removed => exact (hl.modifyCopy k (.of_filter _)).testPass k rfl
  | requeued retry =>
    exact hl.modifyCopy k (f := fun c => c.requeueStrip r.index _) (.requeueStrip _ fun _ _ => ho retry rfl)
  | stuck =>
    refine ((hl.modifyCopy k ?_).latchPlan _).testPass k rfl
    exact Copy.MovesBy.trans (.of_filter _) (.of_counters fun h => h.countStuck)

theorem State.mergeOutcome_requeued {m : Merge} {x : Nat} (h : s.mergeOutcome m = .requeued x) :
    x ≤ Config.maxRetries := by
  unfold State.mergeOutcome at h
  split at h
  · exact Merge.outcome_requeued h
  · cases h

theorem RecordsMove.settleMerge (h : RecordsMove (.mergeCell n) s t) (m : Merge) :
    RecordsMove (.mergeCell n) s (t.settleMerge m) := by
  unfold State.settleMerge
  split
  · exact h.settle _ _ _ fun _ => State.mergeOutcome_requeued
  · exact h

/-- Only a CUTTING copy is paused on spoil (R147). -/
theorem State.pausesOnSpoil_cutting {k : CopySlot} {m : Merge} (h : s.pausesOnSpoil k m = true) :
    (s.copy k).state = .cutting := by
  simp only [State.pausesOnSpoil, Bool.and_eq_true, decide_eq_true_eq] at h
  exact h.2

theorem RecordsMove.mergeEvents (h : RecordsMove (.mergeCell n) s t) (k : CopySlot) (m : Merge) :
    RecordsMove (.mergeCell n) s (t.mergeEvents k m) := by
  have hlatch (v : State) (c : Prop) [Decidable c] (l : PlanLatch) :
      (if c then v.latchPlan l else v).copies = v.copies ∧ (if c then v.latchPlan l else v).spindles = v.spindles := by
    split <;> exact ⟨rfl, rfl⟩
  unfold State.mergeEvents
  dsimp only
  obtain ⟨c1, s1⟩ := hlatch t (1 ≤ m.overcut) .overcut
  obtain ⟨c2, s2⟩ := hlatch (if 1 ≤ m.overcut then t.latchPlan .overcut else t) (1 ≤ m.spoil) .spoil
  have h2 := h.same (c2.trans c1) (s2.trans s1)
  refine RecordsMove.same ?_ (hlatch _ _ _).1 (hlatch _ _ _).2
  split
  · next hp =>
    refine h2.modifyCopy k (f := fun c => { c with state := .paused }) (.of_move ?_ rfl rfl id)
    rw [State.copy, c2.trans c1]
    show copyMove (t.copy k).state .paused _ = true
    rw [State.pausesOnSpoil_cutting hp]
    rfl
  · exact h2

theorem RecordsMove.completeMerge (h : RecordsMove (.mergeCell n) s t) (m : Merge) :
    RecordsMove (.mergeCell n) s (t.completeMerge n m) := by
  have h1 := (h.modifyCopy m.key.copy (f := fun c => { c with counters := c.counters.countMerge m })
    (.of_counters fun h => h.countMerge m)).modifySpindle n (f := fun sp => { sp with merge := none }) fun _ hn => hn
  have h3 := (h1.settleMerge m).mergeEvents m.key.copy m
  unfold State.completeMerge State.answerMerge
  refine .handOn ?_ _
  split
  · exact h3.answer _ _ _
  · exact h3

end

theorem movesRecords_mergeCell (n : SpindleId) : MovesRecords (.mergeCell n) := by
  refine fun s => ⟨_, rfl, ?_⟩
  split
  · exact .refl s
  · next m _ =>
    split
    · exact .refl s
    · next r _ =>
      have h : RecordsMove (.mergeCell n) s (s.mergeOne n m r) := .mergeOne s n m r
      dsimp only
      split
      · split
        · exact h.completeMerge _
        · exact h
      · exact h

/-- Every command moves copies and spindles by no more than `RecordsMove`. -/
theorem movesRecords (i : Instr) : MovesRecords i := by
  cases i with
  | fetch p crcGood clocked => exact movesRecords_fetch p crcGood clocked
  | statusPoll p phase => exact fun s => ⟨_, rfl, .poll s p phase⟩
  | status p => exact fun _ => ⟨_, rfl, .request _ _ fun v => .answered v _ _ _⟩
  | badFrame p flaw => exact movesRecords_badFrame p flaw
  | clearEvents p mask =>
    exact fun _ => ⟨_, rfl, .request _ _ fun v => ((RecordsMove.refl v).modifyPort _ _).answer _ _ _⟩
  | setAttention p mask term => exact movesRecords_setAttention p mask term
  | portReset p => exact movesRecords_portReset p
  | warmReset => exact movesRecords_warmReset
  | powerOn resetHigh => exact movesRecords_powerOn resetHigh
  | resetPin periods => exact movesRecords_resetPin periods
  | resetRelease => exact movesRecords_resetRelease
  | millisecondTick n => exact movesRecords_millisecondTick n
  | leaseExpiry n => exact movesRecords_leaseExpiry n
  | holdCountdownEnd n => exact movesRecords_holdCountdownEnd n
  | openTile tx ty => exact movesRecords_openTile tx ty
  | rescanPreloadCompletion => exact movesRecords_rescanPreloadCompletion
  | putSamples tx ty offset samples => exact movesRecords_putSamples tx ty offset samples
  | viewStaging tx ty offset count => exact movesRecords_viewStaging tx ty offset count
  | sealTile tx ty crc => exact movesRecords_sealTile tx ty crc
  | sealCompletion => exact movesRecords_sealCompletion
  | dropTile tx ty => exact movesRecords_dropTile tx ty
  | defineRelief mw mh => exact movesRecords_defineRelief mw mh
  | readRelief iy ix0 count => exact movesRecords_readRelief iy ix0 count
  | defineCopy args => exact movesRecords_defineCopy args
  | clearCompletion slot => exact movesRecords_clearCompletion slot
  | setPass slot kind stepDown allowance => exact movesRecords_setPass slot kind stepDown allowance
  | startPass slot => exact movesRecords_startPass slot
  | pauseCopy slot => exact movesRecords_pauseCopy slot
  | resumeCopy slot => exact movesRecords_resumeCopy slot
  | closeCopy slot => exact movesRecords_closeCopy slot
  | bindSpindle spindle slot => exact movesRecords_bindSpindle spindle slot
  | unbindSpindle spindle => exact movesRecords_unbindSpindle spindle
  | readFloors slot cy c0 count => exact movesRecords_readFloors slot cy c0 count
  | readCopy slot zero => exact movesRecords_readCopy slot zero
  | loadPlan slot ds => exact movesRecords_loadPlan slot ds
  | clearPlan slot => exact movesRecords_clearPlan slot
  | readStrip slot selector value => exact movesRecords_readStrip slot selector value
  | takeStrip n => exact movesRecords_takeStrip n
  | setPrefetch n threshold => exact movesRecords_setPrefetch n threshold
  | computeCell => exact movesRecords_computeCell
  | drawTargets n count => exact movesRecords_drawTargets n count
  | rewindStrip n => exact movesRecords_rewindStrip n
  | renew n => exact movesRecords_renew n
  | releaseFence slot index action => exact movesRecords_releaseFence slot index action
  | holdSpindle spindle time => exact movesRecords_holdSpindle spindle time
  | reportCut n slot index issue floors => exact movesRecords_reportCut n slot index issue floors
  | mergeCell n => exact movesRecords_mergeCell n
  | postOrder spindle content => exact movesRecords_postOrder spindle content
  | postNote n content => exact movesRecords_postNote n content
  | readOrder n => exact movesRecords_readOrder n
  | readNote spindle => exact movesRecords_readNote spindle

theorem recordsMove_of_exec {i : Instr} {s t : State} (h : exec i s = .next t) : RecordsMove i s t := by
  obtain ⟨u, hu, hm⟩ := movesRecords i s
  obtain rfl : u = t := by simpa using hu.symm.trans h
  exact hm

/-- A step leaves everything as it is, or moves copies and spindles as the command at the front of the queue may. -/
theorem recordsMove_of_step {s t : State} (h : step s = .next t) : t = s ∨ ∃ i, RecordsMove i s t := by
  unfold step at h
  split at h
  · cases h
    exact .inl rfl
  · next i rest _ =>
    have h0 : RecordsMove i s { s with pending := rest } := (RecordsMove.refl s).same rfl rfl
    exact .inr ⟨i, h0.trans (recordsMove_of_exec h)⟩

/-- Settles O35: a floor is lowered only in a copy that the same command makes unreadable. -/
theorem floorsNeverRise : Obligations.FloorsNeverRise := by
  intro s t k cx cy h hfree hclearing
  obtain rfl | ⟨i, hm⟩ := recordsMove_of_step h
  · exact le_rfl
  · obtain hf | ⟨-, hs | hs⟩ := (hm.copies k).floors
    · exact hf cx cy
    · exact absurd hs hfree
    · exact absurd hs hclearing

/-- Settles O59: every move of copies and spindles keeps the bounds. -/
theorem boundsKept : Obligations.BoundsKept := by
  intro s t hs h
  obtain rfl | ⟨i, hm⟩ := recordsMove_of_step h
  · exact hs
  · exact hm.boundsHold hs

/-- Settles O34: the state of a copy is as before or has moved as the table of R27 lists for the command. -/
theorem copyStateMoves : Obligations.CopyStateMoves :=
  fun _ _ _ k h hne => ((recordsMove_of_exec h).copies k).state.resolve_left hne

end Sys2Proof.Machine

namespace Sys2Proof.Machine

/-! ## Requests that carry a copy slot -/

/-- What a request that carries a copy slot does, where its effect is known for a good slot (R26). -/
theorem next_onCopy {s : State} {b : Byte} {f : CopySlot → State → State} {t : State}
    (hnone : slotOf b = none → s.replied .plan .badArg [] = t)
    (hsome : ∀ k, slotOf b = some k → f k (s.take .plan) = t) :
    (Host.Outcome.next (s.onCopy b f) : Result) = .next (s.ifTaken .plan t) := by
  rw [State.onCopy_eq]
  cases h : slotOf b with
  | none => rw [← hnone h]
  | some k => rw [← hsome k h]

/-! ## DEFINE COPY and the end of its clear (R28 to R31) -/

theorem extentFits_eq_false_iff (r : Relief) (ox oy w h sigma : Nat) : extentFits r ox oy w h sigma = false ↔
    (r.mw - 1) * 1024 < ox * 1024 + (w - 1) * sigma ∨ (r.mh - 1) * 1024 < oy * 1024 + (h - 1) * sigma := by
  simp only [extentFits, Bool.and_eq_false_iff, decide_eq_false_iff_not, not_le]

theorem wasClamped_eq_false_iff (a : CopyArgs) (c : Copy) : wasClamped a c = false ↔
    c.mapping.limit = a.limit.toNat ∧ c.f0 = a.f0.toNat ∧ c.margin = a.margin.toNat ∧
      c.tolerance = a.tolerance.toNat ∧ c.leaseTime = a.leaseTime.toNat := by
  simp only [wasClamped, Bool.or_eq_false_iff, decide_eq_false_iff_not, not_not, and_assoc]

/-- The answer code of a request whose values were brought into range. -/
theorem clampedCode {b : Bool} {same : Prop} [Decidable same] (h : b = false ↔ same) :
    (if b then AnswerCode.clamped else .ok) = if same then .ok else .clamped := by
  by_cases hs : same
  · rw [if_pos hs, h.mpr hs]
    rfl
  · rw [if_neg hs, if_pos (Bool.of_not_eq_false (mt h.mp hs))]

/-- Settles O28: the checks in order, the record filled, and the end of the clear. -/
theorem defineCopyAndClear : Obligations.DefineCopyAndClear := by
  refine ⟨fun a s => ?_, fun k s => rfl⟩
  intro sigma limit c same
  have hc : definedCopy a = c := rfl
  refine next_onCopy (fun h => by rw [h]) fun k h => ?_
  rw [h]
  simp only [State.take_answer, State.take_relief, State.take_copy, Relief.defined_eq_false_iff,
    extentFits_eq_false_iff, hc]
  refine if_congr Iff.rfl rfl (if_congr Iff.rfl rfl (if_congr Iff.rfl rfl (if_congr Iff.rfl rfl ?_)))
  rw [clampedCode (wasClamped_eq_false_iff a c), copyValues]
  simp only [← List.append_assoc]
  rw [← State.take_answer]
  rfl

/-! ## Passes (R36 to R38) -/

theorem State.modifyPort_modifyPort (s : State) (p : PortId) (f g : Port → Port) :
    (s.modifyPort p f).modifyPort p g = s.modifyPort p fun x => g (f x) := by
  simp [modifyPort]

theorem State.modifyPort_comm (s : State) {p q : PortId} (h : p ≠ q) (f g : Port → Port) :
    (s.modifyPort p f).modifyPort q g = (s.modifyPort q g).modifyPort p f := by
  refine congrArg (fun ps => { s with ports := ps }) (Ports.ext_get fun r => ?_)
  show ((s.modifyPort p f).modifyPort q g).port r = ((s.modifyPort q g).modifyPort p f).port r
  by_cases hp : r = p
  · subst hp
    rw [modifyPort_port_ne _ _ _ _ h, modifyPort_port_same, modifyPort_port_same, modifyPort_port_ne _ _ _ _ h]
  · by_cases hq : r = q
    · subst hq
      rw [modifyPort_port_same, modifyPort_port_ne _ _ _ _ hp, modifyPort_port_ne _ _ _ _ hp, modifyPort_port_same]
    · rw [modifyPort_port_ne _ _ _ _ hq, modifyPort_port_ne _ _ _ _ hp, modifyPort_port_ne _ _ _ _ hp,
        modifyPort_port_ne _ _ _ _ hq]

/-- An answer does not look at the latches, and a latch not at the answer. -/
theorem State.raise_answer (s : State) (q p : PortId) (bit : Nat) (c : AnswerCode) (d : List Byte) :
    (s.raise q bit).answer p c d = (s.answer p c d).raise q bit := by
  by_cases h : q = p
  · subst h
    unfold raise answer
    rw [modifyPort_modifyPort, modifyPort_modifyPort]
    rfl
  · exact modifyPort_comm _ h _ _

theorem State.completePass_eq (s : State) (k : CopySlot) :
    s.completePass k = (s.setCopy k { s.copy k with state := .ready, planClosed := false }).raise .plan 2 := rfl

/-- Settles O30: each request's checks in order, and the completion or the evaluations of a resume. -/
theorem startPauseResume : Obligations.StartPauseResume := by
  intro slot s
  refine ⟨next_onCopy (fun h => by rw [h]) fun k h => ?_, next_onCopy (fun h => by rw [h]) fun k h => ?_,
    next_onCopy (fun h => by rw [h]) fun k h => ?_⟩
  · rw [h]
    simp only [State.take_answer, State.take_copy]
    refine if_congr Iff.rfl rfl (if_congr Iff.rfl rfl ?_)
    rw [← State.take_answer]
    rfl
  · rw [h]
    simp only [State.take_answer, State.take_copy]
    refine if_congr Iff.rfl rfl ?_
    rw [← State.take_answer]
    rfl
  · rw [h]
    simp only [State.take_answer, State.take_copy]
    refine if_congr Iff.rfl rfl (if_congr Iff.rfl ?_ ?_)
    · rw [State.completePass_eq, State.raise_answer, ← State.take_answer]
      rfl
    · rw [← State.take_answer]
      rfl

/-! ## Binding (R41, R42) -/

theorem State.fenceAll_copy (s : State) (n : SpindleId) (hs : List Held) (k : CopySlot) :
    (s.fenceAll n hs).copy k = { s.copy k with
      queue := (s.copy k).queue.map fun t =>
        if names hs k t.index then { t with state := .fenced, lease := none } else t } :=
  s.mapNamed_copy hs _ k

/-- The issued list after some of its strips were fenced: AWAITING becomes VOID (R104). -/
theorem State.fenceAll_spindle (s : State) (n : SpindleId) (hs : List Held) :
    (s.fenceAll n hs).spindle n = { s.spindle n with
      issued := (s.spindle n).issued.map fun h =>
        if hs.any (fun g => decide (g.key = h.key)) ∧ h.status = .awaiting then { h with status := .void } else h } := by
  rw [fenceAll, modifySpindle_spindle_same, mapNamed_spindle]
  congr 1
  refine List.map_congr_left fun h _ => ?_
  by_cases hk : hs.any (fun g => decide (g.key = h.key)) = true
  · rw [if_pos hk]
    rcases h with ⟨key, status⟩
    cases status <;> simp [fencedStatus, hk]
  · rw [if_neg hk, if_neg fun hc => hk hc.1]

theorem State.fenceAll_spindle_ne (s : State) {n j : SpindleId} (hs : List Held) (h : j ≠ n) :
    (s.fenceAll n hs).spindle j = s.spindle j :=
  modifySpindle_spindle_ne _ _ _ _ h

/-- With no strip to fence nothing is changed. -/
theorem State.fenceAll_nil (s : State) (n : SpindleId) : s.fenceAll n [] = s := by
  have hc : (s.fenceAll n []).copies = s.copies := by
    refine Six.ext_get fun k => ?_
    show (s.fenceAll n []).copy k = s.copy k
    rw [fenceAll_copy]
    simp [names]
  have hs : (s.fenceAll n []).spindles = s.spindles := by
    refine Six.ext_get fun j => ?_
    by_cases hj : j = n
    · subst hj
      show (s.fenceAll j []).spindle j = s.spindle j
      rw [fenceAll_spindle]
      simp
    · exact s.fenceAll_spindle_ne [] hj
  calc s.fenceAll n [] = { s with
        copies := (s.fenceAll n []).copies, spindles := (s.fenceAll n []).spindles } := rfl
    _ = s := by rw [hc, hs]

/-- Settles O32: the checks of a bind, and the fences and latches of an unbind. -/
theorem bindAndUnbind : Obligations.BindAndUnbind := by
  intro spindle slot s
  have hissued (n : SpindleId) : (s.take .plan).issuedStrips n = s.issuedStrips n := rfl
  refine ⟨next_request ?_, fun h => next_request ?_, fun n h => ?_⟩
  · cases spindleOf spindle with
    | none => exact s.take_answer _ _ _
    | some n =>
      cases slotOf slot with
      | none => exact s.take_answer _ _ _
      | some k =>
        simp only [State.take_answer, State.take_copy, hissued]
        refine if_congr Iff.rfl rfl (if_congr Iff.rfl rfl ?_)
        rw [← State.take_answer]
        rfl
  · rw [h]
    exact s.take_answer _ _ _
  · intro hs
    let u := (s.take .plan).fenceAll n hs
    let w := u.modifySpindle n fun sp => { sp with bound := none }
    let v := w.answer .plan .ok []
    have hv (j : SpindleId) : v.spindle j = (u.modifySpindle n fun sp => { sp with bound := none }).spindle j := rfl
    refine ⟨v, next_request ?_, ?_, rfl, rfl, rfl, rfl, rfl, rfl, fun k => ?_, fun j hj => ?_, ?_⟩
    · rw [h]
      dsimp only [State.fenceForUnbind]
      rw [hissued]
      split
      · next h0 =>
        have hu : u = s.take .plan := by
          show (s.take .plan).fenceAll n (s.issuedStrips n) = _
          rw [h0, State.fenceAll_nil]
        rw [← hu]
      · show ((w.raise (.spindle n) 4).raise .plan 3).answer .plan .ok [] = _
        rw [State.raise_answer, State.raise_answer]
    · rw [← State.take_answer]
      rfl
    · exact (s.take .plan).fenceAll_copy n hs k
    · rw [hv, State.modifySpindle_spindle_ne _ _ _ _ hj]
      exact (s.take .plan).fenceAll_spindle_ne hs hj
    · rw [hv, State.modifySpindle_spindle_same]
      show { (s.take .plan).fenceAll n hs |>.spindle n with bound := none } = _
      rw [State.fenceAll_spindle]
      rfl

end Sys2Proof.Machine

namespace Sys2Proof.Machine

/-! ## Readback (R43 to R45) -/

theorem sum_map_filter {α : Type} (p : α → Bool) (f : α → Nat) (l : List α) :
    ((l.filter p).map f).sum = (l.map fun x => if p x then f x else 0).sum := by
  induction l with
  | nil => rfl
  | cons x l ih => cases h : p x <;> simp [h, ih]

/-- The set of spindles bound to a copy, bit by bit (R168). -/
theorem spindleSet_boundTo (s : State) (k : CopySlot) :
    let bound (j : SpindleId) : Nat := if (s.spindle j).bound = some k then 2 ^ j.val else 0
    spindleSet (s.boundTo k) = u8 (bound 0 + bound 1 + bound 2 + bound 3 + bound 4 + bound 5) := by
  rw [spindleSet, State.boundTo, sum_map_filter]
  simp only [allSix, List.map_cons, List.map_nil, List.sum_cons, List.sum_nil, decide_eq_true_eq, Nat.add_zero,
    Nat.add_assoc]

theorem copyStateBytes_eq (a : CopyState) : copyStateBytes a = match a with
    | .free => [0x00#8]
    | .clearing => [0x01#8]
    | .ready => [0x02#8]
    | .cutting => [0x03#8]
    | .paused => [0x04#8] := by
  cases a <;> rfl

theorem passKindBytes_eq (kd : PassKind) : passKindBytes kd = [if kd = .rough then 1#8 else 0#8] := by
  cases kd <;> rfl

theorem u8_zero : u8 0 = List.replicate 1 0#8 := rfl
theorem u16_zero : u16 0 = List.replicate 2 0#8 := rfl
theorem u24_zero : u24 0 = List.replicate 3 0#8 := rfl

/-- A FREE slot shows 54 bytes 0: the state and every item of `State.copyItems` behind it (R45). -/
theorem State.copyItems_free {s : State} {k : CopySlot} (h : (s.copy k).state = .free) :
    s.copyItems k = List.replicate 54 0#8 := by
  have hs : (s.copy k).shown = Copy.free := by rw [Copy.shown, if_pos h]
  unfold copyItems
  simp only [hs]
  show u8 0 ++ u16 0 ++ u16 0 ++ u16 0 ++ u16 0 ++ u16 0 ++ u16 0 ++ u16 0 ++ u24 0 ++ u24 0 ++ u8 0 ++ u16 0 ++ u16 0
    ++ u16 0 ++ u8 0 ++ u8 0 ++ u16 0 ++ u16 0 ++ u8 0 ++ (u16 0 ++ u16 0 ++ u16 0 ++ u16 0 ++ u16 0 ++ u16 0)
    ++ (u16 0 ++ u16 0 ++ u16 0) ++ u8 0 = _
  simp only [u8_zero, u16_zero, u24_zero, List.replicate_append_replicate]

theorem Copy.count_eq_countP (c : Copy) (st : StripState) : c.count st = c.queue.countP fun t => decide (t.state = st) :=
  List.countP_eq_length_filter.symm

/-- Settles O33: the checks in order, and every item of a copy's record. -/
theorem readFloorsAndCopy : Obligations.ReadFloorsAndCopy := by
  intro slot cy c0 count zero s
  refine ⟨next_onCopy (fun h => by rw [h]) fun k h => ?_, next_onCopy (fun h => by rw [h]) fun k h => ?_⟩
  · rw [h]
    simp only [State.take_answer, State.take_copy]
  · rw [h]
    have hitems : (s.take .plan).copyItems k = s.copyItems k := rfl
    by_cases hf : (s.copy k).state = .free
    · have hz : ¬ (flagOf zero = true ∧ ((s.take .plan).copy k).state ≠ .free) := fun hc => hc.2 hf
      simp only [hitems, State.copyItems_free hf, if_pos hf, if_neg hz, State.take_answer]
    · have hs : (s.copy k).shown = s.copy k := by rw [Copy.shown, if_neg hf]
      have hz : (flagOf zero = true ∧ (s.copy k).state ≠ .free) ↔ ¬ zero = 0#8 := by simp [flagOf, hf]
      unfold State.copyItems
      simp only [State.take_copy, hs, if_neg hf, copyStateBytes_eq, passKindBytes_eq, Copy.countItems,
        Copy.count_eq_countP, counterBytes, flag, List.append_assoc, hz, ite_not]
      rw [show (s.take .plan).boundTo k = s.boundTo k from rfl, spindleSet_boundTo]
      split
      · exact s.take_answer _ _ _
      · rw [← State.take_answer]
        rfl

/-! ## SET PASS and its withdrawals (R34, R58, R116) -/

theorem State.mem_boundTo (s : State) (k : CopySlot) (n : SpindleId) :
    n ∈ s.boundTo k ↔ (s.spindle n).bound = some k := by
  simp [boundTo, mem_allSix]

theorem State.boundTo_nodup (s : State) (k : CopySlot) : (s.boundTo k).Nodup :=
  (by decide : allSix.Nodup).filter _

theorem State.computes_eq_true_iff (s : State) (key : StripKey) :
    s.computes key = true ↔ ∃ c, s.engine.inFlight = some c ∧ c.key = key := by
  unfold computes
  cases s.engine.inFlight <;> simp

theorem Spindle.undrawn_eq_true_iff (sp : Spindle) (key : StripKey) :
    sp.undrawn key = true ↔ ∀ e ∈ sp.queue.take sp.readPos, e.key ≠ key := by
  simp only [undrawn, List.all_eq_true, decide_eq_true_eq]

theorem State.withdrawable_eq_true_iff (s : State) (k : CopySlot) (t : Strip) : s.withdrawable k t = true ↔
    t.state = .issued ∧ t.underMerge = false ∧ ∃ n, t.holder = some n ∧
      ∀ e ∈ (s.spindle n).queue.take (s.spindle n).readPos, e.key ≠ t.keyIn k := by
  unfold withdrawable
  cases t.holder <;> simp [Spindle.undrawn_eq_true_iff, and_assoc]

theorem State.withdraw_eq {s : State} {k : CopySlot} {t : Strip} {n : SpindleId} (h : t.holder = some n) :
    s.withdraw k t = (s.leave k t true).raise (.spindle n) 5 := by
  rw [withdraw, h]
  rfl

/-- With no strip to withdraw a SET PASS hands nothing on (R116). -/
theorem State.withdrawAll_of_none {s : State} {k : CopySlot}
    (h : ∀ t ∈ (s.copy k).queue, s.withdrawable k t = false) : s.withdrawAll k = s :=
  if_pos (List.filter_eq_nil_iff.mpr fun t ht => by simp [h t ht])

/-- The strips that SET PASS withdraws leave in some order, then the work they hand on is done (R116). -/
theorem State.withdrawAll_of_some {s : State} {k : CopySlot}
    (h : ∃ t ∈ (s.copy k).queue, s.withdrawable k t = true) :
    ∃ ts : List Strip, ts.Perm ((s.copy k).queue.filter (s.withdrawable k)) ∧
      s.withdrawAll k = (ts.foldl (fun (v : State) t => v.withdraw k t) { s with choices := s.choices + 1 }).handOn
        (s.leavingChores k (ts.any fun t => s.computes (t.keyIn k))) := by
  have hp := permute_perm (Config.handOnOrder s.choices) ((s.copy k).queue.filter (s.withdrawable k))
  refine ⟨_, hp, ?_⟩
  have hne : (s.copy k).queue.filter (s.withdrawable k) ≠ [] := by
    obtain ⟨t, ht, hw⟩ := h
    exact List.ne_nil_of_mem (List.mem_filter.mpr ⟨ht, hw⟩)
  rw [withdrawAll, if_neg hne, hp.any_eq]

/-- The kinds R167 codes: 0 is FINISH, 1 is ROUGH. -/
theorem kindOf_cases (b : Byte) :
    b = 0#8 ∧ kindOf b = some .finish ∨ b = 1#8 ∧ kindOf b = some .rough ∨
      (b ≠ 0#8 ∧ b ≠ 1#8) ∧ kindOf b = none := by
  by_cases h0 : b = 0#8
  · exact .inl ⟨h0, if_pos h0⟩
  · by_cases h1 : b = 1#8
    · exact .inr (.inl ⟨h1, by simp [kindOf, h1]⟩)
    · exact .inr (.inr ⟨⟨h0, h1⟩, by simp [kindOf, h0, h1]⟩)

/-- Settles O29: the checks in order, the values written, and the withdrawals with what they hand on. -/
theorem setPassEffects : Obligations.SetPassEffects := by
  refine ⟨fun slot kind p a s => ?_, fun s k => State.withdrawAll_of_none, fun s k => State.withdrawAll_of_some,
    State.withdrawable_eq_true_iff, fun s k => ⟨s.boundTo_nodup k, s.mem_boundTo k⟩, State.computes_eq_true_iff,
    fun s k t n => State.withdraw_eq⟩
  intro pass
  refine next_onCopy (fun h => by rw [h]) fun k h => ?_
  rw [h]
  have hcode : (if decide (pass.stepDown ≠ p.toNat) || decide (pass.allowance ≠ a.toNat) then AnswerCode.clamped
      else .ok) = if pass.stepDown = p.toNat ∧ pass.allowance = a.toNat then .ok else .clamped :=
    clampedCode (by simp only [Bool.or_eq_false_iff, decide_eq_false_iff_not, not_not])
  by_cases hst : (s.copy k).state ≠ .ready ∧ (s.copy k).state ≠ .paused
  · exact (if_pos hst).trans ((s.take_answer _ _ _).trans (if_pos hst).symm)
  · have hsel (v w : State) :
        (if (s.copy k).state = .paused then w else v) = if (s.copy k).state = .ready then v else w := by
      obtain hr | hp : (s.copy k).state = .ready ∨ (s.copy k).state = .paused := by tauto
      · simp [hr]
      · simp [hp]
    refine (if_neg hst).trans (Eq.trans ?_ (if_neg hst).symm)
    obtain ⟨rfl, hk⟩ | ⟨rfl, hk⟩ | ⟨hne, hk⟩ := kindOf_cases kind
    · rw [hk, if_neg (by decide), ← hsel, ← hcode, ← State.take_answer]
      rfl
    · rw [hk, if_neg (by decide), ← hsel, ← hcode, ← State.take_answer]
      rfl
    · rw [hk, if_pos hne]
      exact s.take_answer _ _ _

end Sys2Proof.Machine

namespace Sys2Proof.Machine

/-! ## The strips of a copy leaving as it is closed (R40, R77) -/

/-- A strip's leaving changes the spindle that holds it, and no other. -/
theorem State.leave_spindle_ite (s : State) (k : CopySlot) (t : Strip) (record : Bool) (n : SpindleId) :
    (s.leave k t record).spindle n =
      if t.holder = some n then (s.spindle n).loseStrip k t record else s.spindle n := by
  cases h : t.holder with
  | none =>
    rw [if_neg (by simp), spindle, leave_spindles, releaseHolder, h]
    show (s.releaseTiles t).spindles.get n = _
    rw [releaseTiles_spindles]
    rfl
  | some m =>
    rw [s.leave_spindle k t record h]
    by_cases hn : n = m
    · subst hn
      simp
    · rw [if_neg hn, if_neg fun e => hn (Option.some.inj e).symm]

/-- Strips of copy k leave one after another as it is closed: no departed entry is recorded (R139). -/
def State.leaveAll (s : State) (k : CopySlot) (l : List Strip) : State := l.foldl (fun v t => v.leave k t false) s

/-- What a strip's leaving leaves alone, the leaving of several does too. -/
theorem State.leaveAll_keeps {β : Type} {k : CopySlot} (g : State → β) (hg : ∀ v t, g (v.leave k t false) = g v)
    (s : State) (l : List Strip) : g (s.leaveAll k l) = g s := by
  induction l generalizing s with
  | nil => rfl
  | cons t l ih => exact (ih (s.leave k t false)).trans (hg s t)

/-- A computation for the strip that leaves is abandoned, another goes on (R109). -/
theorem State.leave_inFlight (s : State) (k : CopySlot) (t : Strip) (record : Bool) :
    (s.leave k t record).engine.inFlight = if s.computes (t.keyIn k) then none else s.engine.inFlight := by
  rw [leave_engine, computes]
  cases s.engine.inFlight with
  | none => rfl
  | some c => by_cases h : c.key = t.keyIn k <;> simp [h, Option.filter]

theorem State.computes_congr {s t : State} (h : t.engine.inFlight = s.engine.inFlight) (key : StripKey) :
    t.computes key = s.computes key := by
  rw [computes, computes, h]

/-- A computation for one of the strips is abandoned, another goes on (R109). -/
theorem State.leaveAll_inFlight (s : State) (k : CopySlot) (l : List Strip) : (s.leaveAll k l).engine.inFlight =
    if l.any (fun t => s.computes (t.keyIn k)) then none else s.engine.inFlight := by
  induction l generalizing s with
  | nil => rfl
  | cons t l ih =>
    refine (ih (s.leave k t false)).trans ?_
    have hl := s.leave_inFlight k t false
    cases hc : s.computes (t.keyIn k)
    · rw [hc, if_neg Bool.false_ne_true] at hl
      simp only [computes_congr hl, hl, List.any_cons, hc, Bool.false_or]
    · rw [hc, if_pos rfl] at hl
      simp [hl, hc]

/-- A strip's leaving lowers the counts of the tiles its footprint covers, and nothing else of a tile (R6). -/
theorem State.leave_tiles (s : State) (k : CopySlot) (t : Strip) (record : Bool) (i : Nat) :
    (s.leave k t record).relief.tiles[i]? = s.relief.tiles[i]?.map fun u => { u with
      dependents := u.dependents - (t.covers (i % s.relief.tw) (i / s.relief.tw)).toNat } := by
  rw [leave_relief, releaseTiles]
  cases hfp : t.footprint with
  | none => simp [Strip.covers_of_none hfp]
  | some fp =>
    have hc : t.covers (i % s.relief.tw) (i / s.relief.tw) = fp.covers (i % s.relief.tw) (i / s.relief.tw) := by
      rw [Strip.covers, hfp]
      rfl
    refine (s.relief.getElem?_adjustDependents fp (· - 1) i).trans ?_
    rw [hc]
    cases fp.covers (i % s.relief.tw) (i / s.relief.tw) <;> rfl

/-- The counts of the tiles under the strips fall, each by the number of strips over it (R6). -/
theorem State.leaveAll_tiles (s : State) (k : CopySlot) (l : List Strip) (i : Nat) :
    (s.leaveAll k l).relief.tiles[i]? = s.relief.tiles[i]?.map fun u => { u with
      dependents := u.dependents - l.countP fun t => t.covers (i % s.relief.tw) (i / s.relief.tw) } := by
  induction l generalizing s with
  | nil => simp [leaveAll]
  | cons t l ih =>
    have htw : (s.leave k t false).relief.tw = s.relief.tw := by rw [leave_relief, releaseTiles_tw]
    refine (ih (s.leave k t false)).trans ?_
    rw [htw, leave_tiles, Option.map_map]
    congr 1
    funext u
    simp only [Function.comp_apply, List.countP_cons, Nat.sub_sub]
    cases t.covers (i % s.relief.tw) (i / s.relief.tw) <;> simp [Nat.add_comm]

/-- Whether a key is that of one of several strips of copy k. -/
def keyAmong (k : CopySlot) (l : List Strip) (key : StripKey) : Bool := l.any fun t => decide (t.keyIn k = key)

theorem Spindle.loseStrip_false (sp : Spindle) (k : CopySlot) (t : Strip) :
    sp.loseStrip k t false = { sp with
      issued := sp.issued.filter fun h => decide (h.key ≠ t.keyIn k)
      queue := sp.queue.filter fun e => decide (e.key ≠ t.keyIn k)
      readPos := ((sp.queue.take sp.readPos).filter fun e => decide (e.key ≠ t.keyIn k)).length } := rfl

/-- A spindle that loses several strips: their entries, their places in the issued list (R87, R111). -/
theorem Spindle.foldl_loseStrip (sp : Spindle) (k : CopySlot) (l : List Strip) :
    l.foldl (fun sp t => sp.loseStrip k t false) sp = { sp with
      issued := sp.issued.filter fun h => !keyAmong k l h.key
      queue := sp.queue.filter fun e => !keyAmong k l e.key
      readPos := if l = [] then sp.readPos
        else ((sp.queue.take sp.readPos).filter fun e => !keyAmong k l e.key).length } := by
  induction l generalizing sp with
  | nil => simp [keyAmong]
  | cons t l ih =>
    have hk (key : StripKey) : (!keyAmong k (t :: l) key) = (!keyAmong k l key && decide (key ≠ t.keyIn k)) := by
      simp [keyAmong, eq_comm, Bool.and_comm]
    rw [List.foldl_cons, ih, loseStrip_false]
    simp only [List.filter_filter, hk, reduceCtorEq, if_false, (filter_take_drop _ _ _).1]
    cases l with
    | nil => simp [keyAmong]
    | cons u l => rfl

/-- Of a spindle the leaving of several strips takes those it holds. -/
theorem State.leaveAll_spindle (s : State) (k : CopySlot) (l : List Strip) (n : SpindleId) :
    (s.leaveAll k l).spindle n =
      (l.filter fun t => decide (t.holder = some n)).foldl (fun sp t => sp.loseStrip k t false) (s.spindle n) := by
  induction l generalizing s with
  | nil => rfl
  | cons t l ih =>
    refine (ih (s.leave k t false)).trans ?_
    rw [leave_spindle_ite]
    by_cases h : t.holder = some n <;> simp [h]

/-! ## CLOSE COPY (R39, R40) -/

theorem State.mergesInto_eq_true_iff (s : State) (k : CopySlot) :
    s.mergesInto k = true ↔ ∃ n m, (s.spindle n).merge = some m ∧ m.key.copy = k := by
  have hl : s.spindles.toList = allSix.map s.spindle := rfl
  simp only [mergesInto, hl, List.any_map, List.any_eq_true, mem_allSix, true_and, Function.comp_apply]
  refine exists_congr fun n => ?_
  cases (s.spindle n).merge <;> simp

/-- What of a relief is no tile: extent, sealed count and wanted tile. -/
def Relief.frame (r : Relief) : Nat × Nat × Nat × Option TileKey := (r.mw, r.mh, r.sealedCount, r.wanted)

theorem State.leave_frame (s : State) (k : CopySlot) (t : Strip) (record : Bool) :
    (s.leave k t record).relief.frame = s.relief.frame := by
  rw [leave_relief, releaseTiles]
  cases t.footprint <;> rfl

/-- The ISSUED and FENCED strips of a copy. -/
def Copy.heldStrips (c : Copy) : List Strip := c.queue.filter fun t => decide (t.state ≠ .planned)

/-- Of a spindle a freed copy takes its strips with their entries, the binding and the departed entries (R40, R139). -/
theorem State.freeCopy_spindle (s : State) (k : CopySlot) (n : SpindleId) :
    (s.freeCopy k).spindle n =
      (((s.copy k).heldStrips.filter fun t => decide (t.holder = some n)).foldl
        (fun sp t => sp.loseStrip k t false) (s.spindle n)).forgetCopy k := by
  rw [← leaveAll_spindle]
  exact Six.get_map _ _ _

/-- CLOSE COPY refused for a copy that is cut or written (R39), and otherwise the copy freed (R40). -/
theorem exec_closeCopy {slot : Byte} {k : CopySlot} (h : slotOf slot = some k) (s : State) :
    exec (.closeCopy slot) s = .next (s.ifTaken .plan (
      if (s.copy k).state = .free then s.replied .plan .badState []
      else if (s.copy k).queue.any (fun t => decide (t.state = .issued)) || s.mergesInto k then
        s.replied .plan .held []
      else if (s.copy k).heldStrips.any (fun t => s.computes (t.keyIn k)) then
        (((s.take .plan).freeCopy k).answer .plan .ok []).grantTest
      else ((s.take .plan).freeCopy k).answer .plan .ok [])) := by
  refine next_onCopy (fun h0 => by simp [h0] at h) fun j hj => ?_
  obtain rfl : j = k := Option.some.inj (hj.symm.trans h)
  have hm : (s.take .plan).mergesInto j = s.mergesInto j := rfl
  simp only [State.take_answer, State.take_copy, hm, Copy.heldStrips, List.any_filter]
  rfl

/-- Settles O31: the refusals, and each part of the state after the copy is freed. -/
theorem closeCopyEffects : Obligations.CloseCopyEffects := by
  intro slot s
  refine ⟨fun h => ?_, fun k h => ?_⟩
  · refine next_onCopy (fun _ => rfl) fun k hk => ?_
    simp [h] at hk
  intro held lost
  have hexec := exec_closeCopy h s
  refine ⟨fun hf => ?_, fun hf hheld => ?_, fun hf hi hm => ?_⟩
  · rw [hexec, if_pos hf]
  · rw [hexec, if_neg hf, if_pos]
    rw [Bool.or_eq_true, List.any_eq_true, State.mergesInto_eq_true_iff]
    simpa only [decide_eq_true_eq] using hheld
  · let u := (s.take .plan).freeCopy k
    have hheld : ((s.copy k).queue.any (fun t => decide (t.state = .issued)) || s.mergesInto k) = false := by
      rw [Bool.or_eq_false_iff, ← Bool.not_eq_true, ← Bool.not_eq_true, List.any_eq_true,
        State.mergesInto_eq_true_iff]
      simpa using ⟨hi, hm⟩
    refine ⟨u.answer .plan .ok [], ?_, ?_, ?_, ?_, ?_, ?_, ?_, ?_, ?_, ?_, ?_, ?_, ?_⟩
    · rw [hexec, if_neg hf, hheld]
      rfl
    · have hp : u.port .plan = (s.take .plan).port .plan :=
        State.leaveAll_keeps (fun v => v.port .plan) (fun v t => congrArg (Ports.get · _) (v.leave_ports k t false)) _ _
      rw [← State.take_answer, State.answer, State.answer, State.modifyPort_port_same, State.modifyPort_port_same, hp]
    · intro q hq
      have hu : u.port q = (s.take .plan).port q :=
        State.leaveAll_keeps (fun v => v.port q) (fun v t => congrArg (Ports.get · q) (v.leave_ports k t false)) _ _
      rw [State.answer, State.modifyPort_port_ne _ _ _ _ hq, hu, State.take_eq_working, State.working,
        State.modifyPort_port_ne _ _ _ _ hq]
    · exact State.leaveAll_keeps State.staging (fun v t => v.leave_staging k t false) _ _
    · exact State.leaveAll_keeps State.inReset (fun v t => v.leave_inReset k t false) _ _
    · exact State.leaveAll_keeps State.choices (fun v t => v.leave_choices k t false) _ _
    · exact State.leaveAll_keeps State.pending (fun v t => v.leave_pending k t false) _ _
    · exact State.setCopy_copy_same _ _ _
    · intro j hj
      refine (State.setCopy_copy_ne _ _ _ _ hj).trans ?_
      exact State.leaveAll_keeps (fun v => v.copy j) (fun v t => v.leave_copy_ne k j t false hj) _ _
    · have hr : u.relief.frame = s.relief.frame :=
        State.leaveAll_keeps (fun v => v.relief.frame) (fun v t => v.leave_frame k t false) _ _
      simpa only [Relief.frame, Prod.mk.injEq, State.answer_relief] using hr
    · intro i
      have ht := (s.take .plan).leaveAll_tiles k held i
      have hc (tx ty : Nat) : (held.countP fun t => t.covers tx ty) = held.countP fun t => match t.footprint with
          | some fp => fp.covers tx ty
          | none => false := by
        congr 1
        funext t
        unfold Strip.covers
        cases t.footprint <;> rfl
      rw [hc] at ht
      exact ht
    · refine ⟨?_, (s.take .plan).leaveAll_inFlight k held⟩
      exact State.leaveAll_keeps (fun v => v.engine.pointer)
        (fun v t => by rw [v.leave_engine k t false]) _ _
    · intro n
      refine ((s.take .plan).freeCopy_spindle k n).trans ?_
      have hlost (key : StripKey) : keyAmong k (held.filter fun t => decide (t.holder = some n)) key = lost n key :=
        List.any_filter
      have hany : held.any (fun t => decide (t.holder = some n)) = true ↔
          ¬ held.filter (fun t => decide (t.holder = some n)) = [] := by
        simp
      rw [Spindle.foldl_loseStrip]
      simp only [show ((s.take .plan).copy k).heldStrips = held from rfl, hlost, hany, ite_not]
      rfl

end Sys2Proof.Machine

namespace Sys2Proof.Machine

/-! ## Targets of a cell (R52 to R60) -/

/-- A cell is held by a missing reading that carries weight (R52). -/
theorem heldByNr_eq_true_iff (ws : List (Nat × Word)) :
    heldByNr ws = true ↔ ∃ x ∈ ws, 0 < x.1 ∧ x.2 = 0xFFFF#16 := by
  simp only [heldByNr, List.any_eq_true, Bool.and_eq_true, decide_eq_true_eq]
  rfl

theorem finalTarget_of_held {r : Relief} {m : Mapping} {cx cy : Nat}
    (h : heldByNr (weightedSamples r m cx cy) = true) : finalTarget r m cx cy = none := if_pos h

/-- Where no missing reading holds the cell, its depth on the copy, limited to L (R55, R56). -/
theorem finalTarget_of_not_held {r : Relief} {m : Mapping} {cx cy : Nat}
    (h : heldByNr (weightedSamples r m cx cy) = false) :
    finalTarget r m cx cy =
      let unlimited := scaleDepth (interpolate (weightedSamples r m cx cy)) m.k + m.z0
      some (min m.limit unlimited, decide (m.limit < unlimited)) := by
  rw [finalTarget, if_neg (Bool.eq_false_iff.mp h)]
  dsimp only
  split
  · next hle => simp [hle]
  · next hgt =>
    have hlt := Nat.lt_of_not_le hgt
    simp [hlt, hlt.le]

/-- No final target lies past the floor limit (R55). -/
theorem finalTarget_le_limit {r : Relief} {m : Mapping} {cx cy t : Nat} {clamped : Bool}
    (h : finalTarget r m cx cy = some (t, clamped)) : t ≤ m.limit := by
  cases hh : heldByNr (weightedSamples r m cx cy) with
  | true => simp [finalTarget_of_held hh] at h
  | false =>
    rw [finalTarget_of_not_held hh, Option.some.injEq, Prod.mk.injEq] at h
    exact h.1 ▸ Nat.min_le_left _ _

theorem passGoal_eq (p : Pass) (t : Nat) : passGoal p t = if p.kind = .finish then t else t - p.allowance := by
  unfold passGoal
  cases p.kind <;> rfl

theorem passGoal_le (p : Pass) (t : Nat) : passGoal p t ≤ t := by
  rw [passGoal_eq]
  split <;> omega

theorem passTarget_of_finish {p : Pass} (h : p.kind = .finish) (t f : Nat) : passTarget p t f = t := by
  rw [passTarget, h]

theorem passTarget_of_rough {p : Pass} (h : p.kind = .rough) (t f : Nat) :
    passTarget p t f = min (f + p.stepDown) (t - p.allowance) := by
  rw [passTarget, passGoal_eq, h]
  rfl

/-- A cut goes no higher than the floor and no deeper than the goal (R57, R58). -/
theorem passTarget_bounds {p : Pass} {t f : Nat} (h : f < passGoal p t) :
    f ≤ passTarget p t f ∧ passTarget p t f ≤ passGoal p t := by
  have hgoal := passGoal_eq p t
  cases hk : p.kind with
  | finish =>
    rw [hk, if_pos rfl] at hgoal
    rw [passTarget_of_finish hk]
    omega
  | rough =>
    rw [hk, if_neg nofun] at hgoal
    rw [passTarget_of_rough hk]
    omega

/-- A FINISH cut goes to the final target past the floor; a ROUGH cut goes by the step-down, within the goal (R57, R58). -/
theorem passTarget_of_cut {p : Pass} {t f : Nat} (h : f < passGoal p t) :
    (p.kind = .finish → passTarget p t f = t ∧ f < t) ∧
    (p.kind = .rough → passTarget p t f = min (f + p.stepDown) (t - p.allowance) ∧
      (1 ≤ p.stepDown → f < passTarget p t f) ∧ passTarget p t f ≤ t - p.allowance) := by
  refine ⟨fun hk => ⟨passTarget_of_finish hk t f, h.trans_le (passGoal_le p t)⟩, fun hk => ?_⟩
  have hgoal : passGoal p t = t - p.allowance := by rw [passGoal_eq, hk]; rfl
  rw [hgoal] at h
  rw [passTarget_of_rough hk]
  exact ⟨rfl, fun hp => by omega, Nat.min_le_right _ _⟩

/-- What a computation makes of a cell: HELD at its floor, NOTHING at its floor, or a cut towards the goal. -/
theorem cellTarget_cases (r : Relief) (m : Mapping) (p : Pass) (cx cy f : Nat) :
    (finalTarget r m cx cy = none ∧
      cellTarget r m p cx cy f = { target := f, held := true, clamped := false, nothing := false }) ∨
    ∃ t clamped, finalTarget r m cx cy = some (t, clamped) ∧
      (passGoal p t ≤ f ∧
          cellTarget r m p cx cy f = { target := f, held := false, clamped := clamped, nothing := true } ∨
        f < passGoal p t ∧
          cellTarget r m p cx cy f =
            { target := passTarget p t f, held := false, clamped := clamped, nothing := false }) := by
  unfold cellTarget
  cases finalTarget r m cx cy with
  | none => exact .inl ⟨rfl, rfl⟩
  | some d =>
    obtain ⟨t, clamped⟩ := d
    refine .inr ⟨t, clamped, rfl, ?_⟩
    rcases Nat.lt_or_ge f (passGoal p t) with h | h
    · exact .inr ⟨h, if_neg (Nat.not_le_of_lt h)⟩
    · exact .inl ⟨h, if_pos h⟩

/-- HELD is the one flag that looks neither at the pass nor at the floor (R52). -/
theorem cellTarget_held (r : Relief) (m : Mapping) (p : Pass) (cx cy f : Nat) :
    (cellTarget r m p cx cy f).held = heldByNr (weightedSamples r m cx cy) := by
  cases hh : heldByNr (weightedSamples r m cx cy) with
  | true => rw [cellTarget, finalTarget_of_held hh]
  | false =>
    obtain ⟨hf, -⟩ | ⟨t, clamped, -, ⟨-, he⟩ | ⟨-, he⟩⟩ := cellTarget_cases r m p cx cy f
    · simp [finalTarget_of_not_held hh] at hf
    · rw [he]
    · rw [he]

/-- Every target lies between the floor and the larger of the floor and the floor limit (R60). -/
theorem cellTarget_bounds (r : Relief) (m : Mapping) (p : Pass) (cx cy f : Nat) :
    f ≤ (cellTarget r m p cx cy f).target ∧ (cellTarget r m p cx cy f).target ≤ max f m.limit := by
  obtain ⟨-, he⟩ | ⟨t, clamped, ht, ⟨-, he⟩ | ⟨hg, he⟩⟩ := cellTarget_cases r m p cx cy f
  · rw [he]
    exact ⟨le_rfl, le_max_left _ _⟩
  · rw [he]
    exact ⟨le_rfl, le_max_left _ _⟩
  · rw [he]
    obtain ⟨hlo, hhi⟩ := passTarget_bounds hg
    have hlimit : passGoal p t ≤ m.limit := (passGoal_le p t).trans (finalTarget_le_limit ht)
    exact ⟨hlo, (hhi.trans hlimit).trans (le_max_right _ _)⟩

/-- Settles O36: the bounds in every case, and each case of a computed cell by itself. -/
theorem targetBound : Obligations.TargetBound := by
  intro r m p cx cy f e ws unlimited t goal
  obtain ⟨hlo, hhi⟩ : f ≤ e.target ∧ e.target ≤ max f m.limit := cellTarget_bounds r m p cx cy f
  have hheld : e.held = heldByNr ws := cellTarget_held r m p cx cy f
  have hrange : f ≤ 262143 → m.limit ≤ 262143 → e.target ≤ 262143 := fun hf hl => hhi.trans (max_le hf hl)
  refine ⟨hlo, hhi, by rw [hheld, heldByNr_eq_true_iff], ?_⟩
  obtain ⟨hf, he⟩ | ⟨t', clamped, hf, h⟩ := cellTarget_cases r m p cx cy f
  · have he : e = { target := f, held := true, clamped := false, nothing := false } := he
    rw [he] at hrange ⊢
    exact ⟨fun _ => ⟨hf, rfl, rfl⟩, nofun, fun _ => rfl, nofun, hrange⟩
  have hnot : e.held = false := by
    obtain ⟨-, he⟩ | ⟨-, he⟩ := h <;> exact congrArg CellTarget.held he
  have hfinal : finalTarget r m cx cy = some (t, decide (m.limit < unlimited)) :=
    finalTarget_of_not_held (hheld.symm.trans hnot)
  obtain ⟨rfl, rfl⟩ : t' = t ∧ clamped = decide (m.limit < unlimited) := by
    simpa using hf.symm.trans hfinal
  have hgoal : passGoal p t = goal := passGoal_eq p t
  obtain ⟨hg, he⟩ | ⟨hg, he⟩ := h
  · have he : e = { target := f, held := false, clamped := decide (m.limit < unlimited), nothing := true } := he
    rw [he] at hrange ⊢
    exact ⟨nofun, fun _ => ⟨hf, rfl, fun _ => hgoal ▸ hg, fun _ => rfl⟩, fun _ => rfl, nofun, hrange⟩
  · have he : e =
        { target := passTarget p t f, held := false, clamped := decide (m.limit < unlimited), nothing := false } := he
    rw [he] at hrange ⊢
    refine ⟨nofun, fun _ => ⟨hf, rfl, nofun, fun hle => ?_⟩, nofun, fun _ _ => passTarget_of_cut hg, hrange⟩
    exact absurd hg (Nat.not_lt_of_le (hgoal ▸ hle))

/-! ## The scaled depth (R54) -/

theorem scaleDepth_le {d k : Nat} (hd : d ≤ 65534) (hk : k ≤ 4096) : scaleDepth d k ≤ 262136 := by
  have : d * k ≤ 65534 * 4096 := Nat.mul_le_mul hd hk
  unfold scaleDepth
  omega

/-- Settles O37: at a fixed scale the scaled depth is linear arithmetic, and it grows with d and k. -/
theorem scaledDepth : Obligations.ScaledDepth := by
  refine ⟨fun _ _ => rfl, fun _ _ => scaleDepth_le, by decide, fun d => ?_, fun d => ?_, fun h => ?_, by decide⟩
  · unfold scaleDepth
    omega
  · unfold scaleDepth
    omega
  · unfold scaleDepth
    omega

/-! ## What a footprint covers (R62, R90) -/

theorem Mapping.x_mono (m : Mapping) {a b : Nat} (h : a ≤ b) : m.x a ≤ m.x b :=
  Nat.add_le_add_left (Nat.mul_le_mul_right _ h) _

/-- With a scale of at most 4 master cells to a copy cell, 256 cells of a row reach over 1020 master cells. -/
theorem Mapping.x_last_le (m : Mapping) (first : Nat) {length : Nat} (hl : length ≤ 256) (hs : m.sigma ≤ 4096) :
    m.x (first + length - 1) ≤ m.x first + 1044480 := by
  have hstep : (first + length - 1) * m.sigma ≤ (first + 255) * m.sigma := Nat.mul_le_mul_right _ (by omega)
  have hreach : 255 * m.sigma ≤ 255 * 4096 := Nat.mul_le_mul_left _ hs
  rw [Nat.add_mul] at hstep
  unfold x
  omega

/-- Both samples of an axis lie in the tiles from that of a position's index to that of the next index within the
extent (R50). -/
theorem sample_index_bounds {i lo hi extent : Nat} (hlo : lo ≤ i) (hhi : i ≤ hi) (hext : hi + 1 ≤ extent) {j : Nat}
    (hj : j ∈ [i, lastIndex extent (i + 1)]) : lo / 32 ≤ j / 32 ∧ j / 32 ≤ min (hi + 1) (extent - 1) / 32 := by
  have hbounds : lo ≤ j ∧ j ≤ min (hi + 1) (extent - 1) := by
    simp only [List.mem_cons, List.not_mem_nil, or_false, lastIndex] at hj
    split at hj <;> omega
  exact ⟨Nat.div_le_div_right hbounds.1, Nat.div_le_div_right hbounds.2⟩

theorem Footprint.covers_iff (fp : Footprint) (tx ty : Nat) :
    fp.covers tx ty = true ↔ (fp.tx0 ≤ tx ∧ tx ≤ fp.tx1) ∧ fp.ty0 ≤ ty ∧ ty ≤ fp.ty1 := by
  simp only [covers, Bool.and_eq_true, decide_eq_true_eq, and_assoc]

/-- The tiles of a footprint stand row by row, and in each row from left to right (R90). -/
theorem Footprint.tiles_sorted (fp : Footprint) :
    fp.tiles.Pairwise fun a b => a.ty < b.ty ∨ a.ty = b.ty ∧ a.tx < b.tx := by
  refine List.pairwise_flatMap.mpr ⟨fun ty _ => ?_, ?_⟩
  · exact List.pairwise_map.mpr ((List.pairwise_lt_range' ..).imp fun h => .inr ⟨rfl, h⟩)
  · refine (List.pairwise_lt_range' ..).imp fun h a ha b hb => ?_
    obtain ⟨-, -, rfl⟩ := List.mem_map.mp ha
    obtain ⟨-, -, rfl⟩ := List.mem_map.mp hb
    exact .inl h

theorem Footprint.length_tiles (fp : Footprint) :
    fp.tiles.length = (fp.ty1 + 1 - fp.ty0) * (fp.tx1 + 1 - fp.tx0) := by
  simp [tiles, List.length_flatMap]

/-- Settles O44: a strip's positions lie between those of its first and last cell, which are at most 1020 master cells
apart. -/
theorem footprintCovers : Obligations.FootprintCovers := by
  intro r m row first length hl1 hl hs hw hh hx hy fp
  have hlast : m.x (first + length - 1) / 1024 + 1 ≤ r.mw := by omega
  have hrow : m.y row / 1024 + 1 ≤ r.mh := by omega
  have hspan := m.x_last_le first hl hs
  have hfirst : m.x first ≤ m.x (first + length - 1) := m.x_mono (by omega)
  have hty0 : fp.ty0 = m.y row / 1024 / 32 := rfl
  have hty1 : fp.ty1 = min (m.y row / 1024 + 1) (r.mh - 1) / 32 := rfl
  have htx0 : fp.tx0 = m.x first / 1024 / 32 := rfl
  have htx1 : fp.tx1 = min (m.x (first + length - 1) / 1024 + 1) (r.mw - 1) / 32 := rfl
  have hrows : fp.ty0 ≤ fp.ty1 ∧ fp.ty1 ≤ fp.ty0 + 1 := by omega
  have hcols : fp.tx0 ≤ fp.tx1 ∧ fp.tx1 ≤ fp.tx0 + 32 := by omega
  refine ⟨fun cx hlo hhi ix hix iy hiy => ?_, fp.mem_tiles, fp.tiles_sorted, hrows.1, hrows.2, hcols.1, hcols.2, ?_⟩
  · have h0 : m.x first / 1024 ≤ m.x cx / 1024 := Nat.div_le_div_right (m.x_mono hlo)
    have h1 : m.x cx / 1024 ≤ m.x (first + length - 1) / 1024 := Nat.div_le_div_right (m.x_mono (by omega))
    exact (fp.covers_iff _ _).mpr
      ⟨sample_index_bounds h0 h1 hlast hix, sample_index_bounds le_rfl le_rfl hrow hiy⟩
  · rw [fp.length_tiles]
    exact Nat.mul_le_mul (by omega : _ ≤ 2) (by omega : _ ≤ 33)

/-! ## COMPUTE_CELL (R59, R61, R107, R108) -/

/-- The counters saturate at 65535 (R43, R61). -/
theorem Counters.countCell_eq (c : Counters) (ct : CellTarget) :
    c.countCell ct = { c with
      held := if ct.held then min 65535 (c.held + 1) else min 65535 c.held
      clamped := if ct.clamped then min 65535 (c.clamped + 1) else min 65535 c.clamped } := by
  unfold countCell raiseCounter
  cases ct.held <;> cases ct.clamped <;> rfl

theorem Engine.advance_eq (e : Engine) (c : Computation) (g : Geometry) :
    e.advance c g = { e with
      inFlight := if g.length ≤ c.made + 1 then none
        else some { c with made := c.made + 1, nextColumn := g.column (c.made + 1) } } := by
  unfold advance
  split
  · next h => rw [if_neg (Nat.not_le_of_lt h)]
  · next h => rw [if_pos (Nat.le_of_not_lt h)]

/-- The state a cell leaves: the counters, the entry at the tail, STRIP_READY and the engine's place (R107). -/
theorem State.placeCell_eq (s : State) (c : Computation) (g : Geometry) :
    s.placeCell c g = { s with
      copies := s.copies.set c.key.copy { s.copy c.key.copy with
        counters := (s.copy c.key.copy).counters.countCell (s.computeTarget c g.row) }
      spindles := s.spindles.set c.holder { s.spindle c.holder with
        queue := (s.spindle c.holder).queue ++ [entryOf c.key c.nextColumn (s.computeTarget c g.row)
          (decide (c.made = 0)) (decide (g.length ≤ c.made + 1))] }
      ports := (if c.made = 0 then s.raise (.spindle c.holder) 1 else s).ports
      engine := s.engine.advance c g } := by
  unfold placeCell
  split <;> rfl

theorem State.modifySpindle_self (s : State) (n : SpindleId) : (s.modifySpindle n fun sp => sp) = s :=
  congrArg (fun x => { s with spindles := x }) (Six.set_get _ _)

/-- The state after the cell of a computation, before what its completion hands on (R107, R108). -/
def State.afterCell (s : State) (c : Computation) (t : Strip) : State :=
  if t.length ≤ c.made + 1 then
    (s.placeCell c t.geometry).modifySpindle c.holder fun sp => sp.setStatus c.key fun _ => .complete
  else s.placeCell c t.geometry

theorem exec_computeCell {s : State} {c : Computation} {t : Strip} (hc : s.engine.inFlight = some c)
    (ht : s.strip? c.key = some t) :
    exec .computeCell s = .next (if t.length ≤ c.made + 1 then (s.afterCell c t).handOn [.evaluate c.holder, .grant]
      else s.afterCell c t) := by
  show execComputeCell s = _
  unfold execComputeCell State.afterCell State.completeComputation
  simp only [hc, ht]
  split <;> rfl

/-- Beside the cell itself, the last one completes its strip in the issued list (R108). -/
theorem State.afterCell_eq (s : State) (c : Computation) (t : Strip) :
    s.afterCell c t = (s.placeCell c t.geometry).modifySpindle c.holder fun sp => { sp with
      issued := sp.issued.map fun h =>
        if t.length ≤ c.made + 1 ∧ h.key = c.key then { h with status := .complete } else h } := by
  unfold afterCell
  split
  · next h => simp only [h, true_and, Spindle.setStatus]
  · next h =>
    simp only [h, false_and, if_false, List.map_id']
    exact (State.modifySpindle_self _ _).symm

/-- Settles O49: the state after the cell, part by part. -/
theorem computeCellEffects : Obligations.ComputeCellEffects := by
  refine ⟨fun s h => ?_, fun s c t hc ht => ?_⟩
  · show execComputeCell s = _
    rw [execComputeCell, h]
  intro n k ct last e
  have hlast : last = true ↔ t.length ≤ c.made + 1 := decide_eq_true_iff
  have hengine := s.engine.advance_eq c t.geometry
  refine ⟨s.afterCell c t, ?_, ?_⟩
  · rw [exec_computeCell hc ht]
    simp only [hlast]
    rfl
  rw [State.afterCell_eq, State.placeCell_eq]
  refine ⟨rfl, rfl, rfl, rfl, rfl, rfl, fun j hj => Six.get_set_ne _ _ _ _ hj, ?_, fun j hj => ?_, ?_, ?_, ?_⟩
  · refine (Six.get_set_same _ _ _).trans ?_
    rw [Counters.countCell_eq]
    rfl
  · exact (State.modifySpindle_spindle_ne _ _ _ _ hj).trans (Six.get_set_ne _ _ _ _ hj)
  · rw [State.modifySpindle_spindle_same, State.spindle, Six.get_set_same]
    simp only [hlast]
    rfl
  · exact (congrArg Engine.pointer hengine).trans rfl
  · refine (congrArg Engine.inFlight hengine).trans ?_
    simp only [hlast, Geometry.column]
    cases h : t.direction <;> simp [Strip.geometry, h]

end Sys2Proof.Machine

namespace Sys2Proof.Machine

/-! ## The search and what holds it back (R89, R91, R93, R94) -/

/-- The first PLANNED strip of a copy that passes a test, and those before it in the queue (R89, R93). -/
theorem Copy.find?_plannedStrips_some {c : Copy} {q : Strip → Bool} {t : Strip}
    (h : c.plannedStrips.find? q = some t) :
    ∃ before after, c.queue = before ++ t :: after ∧ t.state = .planned ∧ q t = true ∧
      ∀ u ∈ before, u.state = .planned → q u = false := by
  rw [plannedStrips, List.find?_filter, List.find?_eq_some_iff_append] at h
  obtain ⟨ht, before, after, hq, hb⟩ := h
  obtain ⟨hp, ht⟩ : t.state = .planned ∧ q t = true := by simpa using ht
  refine ⟨before, after, hq, hp, ht, fun u hu hpl => ?_⟩
  simpa [hpl] using hb u hu

theorem Copy.find?_plannedStrips_none {c : Copy} {q : Strip → Bool} (h : c.plannedStrips.find? q = none) :
    ∀ u ∈ c.queue, u.state = .planned → q u = false := by
  intro u hu hp
  simpa using List.find?_eq_none.mp h u (List.mem_filter.mpr ⟨hu, decide_eq_true hp⟩)

/-- In a list that is in strict order, what comes before the first member that passes a test does not pass it. -/
theorem find?_some_of_pairwise {α : Type} {l : List α} {p : α → Bool} {r : α → α → Prop} (hl : l.Pairwise r)
    (hr : ∀ a b, r a b → ¬ r b a) {x : α} (h : l.find? p = some x) {y : α} (hy : y ∈ l) (hyx : r y x) :
    p y = false := by
  obtain ⟨-, before, after, rfl, hb⟩ := List.find?_eq_some_iff_append.mp h
  obtain ⟨-, hafter, -⟩ := List.pairwise_append.mp hl
  obtain hy | rfl | hy : y ∈ before ∨ y = x ∨ y ∈ after := by simpa using hy
  · simpa using hb y hy
  · exact absurd hyx (hr _ _ hyx)
  · exact absurd hyx (hr _ _ ((List.pairwise_cons.mp hafter).1 y hy))

theorem Relief.isSealed_eq_true_iff (r : Relief) (key : TileKey) :
    r.isSealed key = true ↔ ∃ u, r.tile? key = some u ∧ u.state = .sealed := by
  unfold isSealed
  cases r.tile? key <;> simp

theorem Copy.zoneFree_eq_true_iff (c : Copy) (n : SpindleId) (t : Strip) : c.zoneFree n t = true ↔
    ∀ u ∈ c.queue, u.state ≠ .planned → u.holder ≠ some n → (zoneOf c t).meets (zoneOf c u) = false := by
  simp only [zoneFree, List.all_eq_true, Bool.or_eq_true, decide_eq_true_eq, Bool.not_eq_true']
  refine forall₂_congr fun u _ => ?_
  tauto

/-- The tile test asks for every tile that the footprint covers (R89, R90). -/
theorem State.tilesSealed_eq_true_iff (s : State) (k : CopySlot) (t : Strip) : s.tilesSealed k t = true ↔
    ∀ tx ty, (s.footprintOf k t).covers tx ty = true → s.relief.isSealed ⟨tx, ty⟩ = true := by
  simp only [tilesSealed, List.all_eq_true, Footprint.mem_tiles]
  exact ⟨fun h tx ty => h ⟨tx, ty⟩, fun h key => h key.tx key.ty⟩

/-- The tile a strip waits for comes first, row by row, among those it covers that are not SEALED (R94). -/
theorem State.missingTile_some {s : State} {k : CopySlot} {t : Strip} {x : TileKey} (h : s.missingTile k t = some x) :
    (s.footprintOf k t).covers x.tx x.ty = true ∧ s.relief.isSealed x = false ∧
      ∀ tx ty, (s.footprintOf k t).covers tx ty = true → ty < x.ty ∨ ty = x.ty ∧ tx < x.tx →
        s.relief.isSealed ⟨tx, ty⟩ = true := by
  refine ⟨(Footprint.mem_tiles _ _).mp (List.mem_of_find?_eq_some h), by simpa using List.find?_some h,
    fun tx ty hc hlt => ?_⟩
  have hfirst := find?_some_of_pairwise (Footprint.tiles_sorted _) (by intro a b; omega) h
    ((Footprint.mem_tiles _ ⟨tx, ty⟩).mpr hc) hlt
  simpa using hfirst

/-- A strip waits for no tile where it passes the tile test. -/
theorem State.missingTile_eq_none_iff (s : State) (k : CopySlot) (t : Strip) :
    s.missingTile k t = none ↔ s.tilesSealed k t = true := by
  simp [missingTile, tilesSealed]

/-! ## The issue (R75, R76, R92, R122) -/

theorem State.issueStrip_copy_same (s : State) (n : SpindleId) (k : CopySlot) (t : Strip) :
    (s.issueStrip n k t).copy k =
      (s.copy k).updateStrip t.index (Strip.issuedTo n (s.footprintOf k t) (s.copy k).leaseTime) :=
  s.modifyCopy_copy_same k fun c => c.updateStrip t.index (Strip.issuedTo n (s.footprintOf k t) (s.copy k).leaseTime)

theorem State.issueStrip_spindle_same (s : State) (n : SpindleId) (k : CopySlot) (t : Strip) :
    (s.issueStrip n k t).spindle n = { s.spindle n with
      issued := (s.spindle n).issued ++ [{ key := t.nextKey k, status := .awaiting }] } :=
  State.modifySpindle_spindle_same _ n _

theorem State.issueStrip_relief (s : State) (n : SpindleId) (k : CopySlot) (t : Strip) :
    (s.issueStrip n k t).relief = s.relief.adjustDependents (s.footprintOf k t) (· + 1) := rfl

/-- Settles O42: the searches by what stands before the strip found, the missing tile by the row-major order of a
footprint's tiles, and the issue part by part. -/
theorem issueEffects : Obligations.IssueEffects := by
  refine ⟨fun s n k t h => ?_, fun s n k h u hu hp => ?_, Copy.zoneFree_eq_true_iff, fun s k t => ?_,
    fun s n k t h => ?_, fun s n k h u hu hp => ?_, fun s k t x h => ?_, fun s k t h => ?_, fun s n k t => ?_⟩
  · obtain ⟨before, after, hq, hp, ht, hb⟩ := Copy.find?_plannedStrips_some h
    obtain ⟨hz, hs⟩ := Bool.and_eq_true_iff.mp ht
    exact ⟨before, after, hq, hp, hz, hs, fun u hu hpl => Bool.and_eq_false_iff.mp (hb u hu hpl)⟩
  · exact Bool.and_eq_false_iff.mp (Copy.find?_plannedStrips_none h u hu hp)
  · simp only [State.tilesSealed_eq_true_iff, Relief.isSealed_eq_true_iff]
  · obtain ⟨before, after, hq, hp, ht, hb⟩ := Copy.find?_plannedStrips_some h
    obtain ⟨hz, hs⟩ := Bool.and_eq_true_iff.mp ht
    refine ⟨before, after, hq, hp, hz, by simpa using hs, fun u hu hpl => ?_⟩
    simpa only [Bool.and_eq_false_iff, Bool.not_eq_false'] using hb u hu hpl
  · simpa only [Bool.and_eq_false_iff, Bool.not_eq_false'] using Copy.find?_plannedStrips_none h u hu hp
  · obtain ⟨hc, hs, hb⟩ := State.missingTile_some h
    simp only [← Relief.isSealed_eq_true_iff]
    exact ⟨hc, by simp [hs], hb⟩
  · simp only [← Relief.isSealed_eq_true_iff]
    exact (s.tilesSealed_eq_true_iff k t).mp ((s.missingTile_eq_none_iff k t).mp h)
  · exact ⟨rfl, s.issueStrip_keeps n k t, s.issueStrip_copy_same n k t, s.issueStrip_spindle_same n k t,
      s.issueStrip_relief n k t⟩

end Sys2Proof.Machine

namespace Sys2Proof.Machine

/-! ## The lowest unused strip slot (R64) -/

/-- The search for an unused number goes no further than its fuel, past numbers that are strips' indices. -/
theorem firstUnused_bounds (q : List Strip) (fuel i : Nat) :
    firstUnused q fuel i ≤ i + fuel ∧ ∀ j, i ≤ j → j < firstUnused q fuel i → ∃ t ∈ q, t.index = j := by
  induction fuel generalizing i with
  | zero => exact ⟨le_rfl, fun j h1 h2 => absurd h2 (Nat.not_lt.mpr h1)⟩
  | succ fuel ih =>
    unfold firstUnused
    split
    · next hi =>
      obtain ⟨hle, hused⟩ := ih (i + 1)
      refine ⟨by omega, fun j h1 h2 => ?_⟩
      obtain rfl | hlt := Nat.eq_or_lt_of_le h1
      · simpa using hi
      · exact hused j hlt h2
    · exact ⟨Nat.le_add_right i _, fun j h1 h2 => absurd h2 (Nat.not_lt.mpr h1)⟩

theorem Copy.lowestUnused_le (c : Copy) : c.lowestUnused ≤ c.queue.length := by
  simpa [lowestUnused] using (firstUnused_bounds c.queue c.queue.length 0).1

theorem Copy.exists_index_of_lt_lowestUnused (c : Copy) {j : Nat} (h : j < c.lowestUnused) :
    ∃ t ∈ c.queue, t.index = j :=
  (firstUnused_bounds c.queue c.queue.length 0).2 j (Nat.zero_le j) h

/-! ## Descriptors taken (R69) -/

/-- Every descriptor counted as accepted has put a strip in the queue (R69, R71). -/
theorem takeDescriptor_accepted_le (acc : Copy × LoadCounts) (d : Descriptor)
    (h : acc.2.accepted ≤ acc.1.queue.length) :
    (takeDescriptor acc d).2.accepted ≤ (takeDescriptor acc d).1.queue.length := by
  have hclip (b : Bool) : (if b then { acc.2 with clipped := acc.2.clipped + 1 } else acc.2).accepted =
      acc.2.accepted := by
    cases b <;> rfl
  unfold takeDescriptor
  dsimp only
  split
  · exact h
  · split
    · exact (hclip _).trans_le h
    · rw [hclip, List.length_append]
      exact Nat.succ_le_succ h

theorem takeDescriptors_accepted_le (c : Copy) (ds : List Descriptor) :
    (takeDescriptors c ds).2.accepted ≤ (takeDescriptors c ds).1.queue.length :=
  List.foldlRecOn (motive := fun acc : Copy × LoadCounts => acc.2.accepted ≤ acc.1.queue.length) ds takeDescriptor
    (Nat.zero_le _) fun acc h d _ => takeDescriptor_accepted_le acc d h

/-- A descriptor within the extent is dropped where the strip table is full, and otherwise accepted; clipped or not, it
is counted as the one or the other (R69 cases 2 to 4). -/
theorem takeDescriptor_of_within {c : Copy} {d : Descriptor} (n : LoadCounts) (hr : d.row.toNat < c.h)
    (hf : d.first.toNat < c.w) :
    let clips := c.w < d.first.toNat + lengthOf d.lengthCode
    let n' := if clips then { n with clipped := n.clipped + 1 } else n
    takeDescriptor (c, n) d = if 4096 ≤ c.queue.length then (c, { n' with overflow := n'.overflow + 1 })
      else ({ c with queue := c.queue ++ [acceptedStrip d c.lowestUnused
          (if clips then c.w - d.first.toNat else lengthOf d.lengthCode)] },
        { n' with accepted := n'.accepted + 1 }) := by
  have hin : ¬ (c.h ≤ d.row.toNat ∨ c.w ≤ d.first.toNat) := by omega
  simp only [takeDescriptor, if_neg hin, decide_eq_true_eq]
  rfl

/-! ## LOAD PLAN (R68 to R71, R81) -/

theorem endsPlan_eq (ds : List Descriptor) : endsPlan ds = (ds.getLast?.map Descriptor.endMark).getD false := by
  unfold endsPlan
  cases ds.getLast? <;> rfl

/-- A request that closes the plan of an empty queue ends the pass; it has accepted no strip, so it hands no evaluations
on (R71, R81). -/
theorem State.afterLoad_eq {v : State} {k : CopySlot} {accepted : Nat} {closed : Bool}
    (hclosed : (v.copy k).planClosed = closed) (hacc : accepted ≤ (v.copy k).queue.length) :
    v.afterLoad k accepted closed =
      if (v.copy k).state ≠ .cutting then v
      else if closed = true ∧ (v.copy k).queue = [] then v.completePass k
      else if 1 ≤ accepted then v.handOn ((v.boundTo k).map Chore.evaluate)
      else v := by
  by_cases hs : (v.copy k).state = .cutting
  · rw [afterLoad, if_pos hs, if_neg (not_not_intro hs)]
    by_cases hend : closed = true ∧ (v.copy k).queue = []
    · obtain ⟨hc, hq⟩ := hend
      have hnone : ¬ 1 ≤ accepted := by rw [hq] at hacc; simpa using hacc
      simp [testPass, hs, hclosed, hc, hq, hnone]
    · have hsame : (if closed then v.testPass k else v) = v := by
        cases hc : closed with
        | false => rfl
        | true => exact (if_pos rfl).trans (if_neg fun ⟨_, _, hq⟩ => hend ⟨hc, hq⟩)
      rw [hsame, if_neg hend]
  · rw [afterLoad, if_neg hs, if_pos hs]

/-- Settles O39: the checks in order and what follows them; a descriptor outside the extent, in a full table, and
accepted. -/
theorem loadPlanEffects : Obligations.LoadPlanEffects := by
  refine ⟨fun slot ds s => ?_, fun c n d => ?_⟩
  · by_cases hlen : ds.length < 1 ∨ 32 < ds.length
    · simp only [exec, execLoadPlan, if_pos hlen, State.request_eq, State.take_answer]
    · simp only [exec, execLoadPlan, if_neg hlen]
      refine next_onCopy (fun h => by rw [h]) fun k h => ?_
      rw [h]
      simp only [State.take_answer, State.take_copy, marksEarly]
      refine if_congr Iff.rfl rfl (if_congr Iff.rfl rfl (if_congr Iff.rfl rfl ?_))
      rw [← endsPlan_eq, ← State.take_answer]
      set taken := takeDescriptors (s.copy k) ds
      set c := { taken.1 with planClosed := endsPlan ds }
      set v := ((s.take .plan).setCopy k c).answer .plan .ok (loadItems taken.2 c)
      have hv : v.copy k = c := State.setCopy_copy_same _ k c
      refine (State.afterLoad_eq (congrArg Copy.planClosed hv) ?_).trans ?_
      · rw [hv]
        exact takeDescriptors_accepted_le _ ds
      · rw [State.completePass_eq, hv]
        rfl
  · intro given clips n'
    refine ⟨fun h => if_pos h, fun hr hf hq => ?_, fun hr hf hq => ⟨c.lowestUnused, ?_, ?_, ?_, ?_⟩⟩
    · exact (takeDescriptor_of_within n hr hf).trans (if_pos hq)
    · simpa using c.lowestUnused_notMem
    · exact fun j => c.exists_index_of_lt_lowestUnused
    · exact c.lowestUnused_le.trans_lt hq
    · exact (takeDescriptor_of_within n hr hf).trans (if_neg (Nat.not_le.mpr hq))

/-! ## CLEAR PLAN and READ STRIP (R66, R73, R83) -/

/-- The PLANNED strips are those that CLEAR PLAN does not keep (R73). -/
theorem Copy.count_planned_eq (c : Copy) :
    c.count .planned = c.queue.length - (c.queue.filter fun t => decide (t.state ≠ .planned)).length := by
  have hsplit := c.queue.length_eq_length_filter_add fun t => decide (t.state = .planned)
  simp only [count, ne_eq, decide_not]
  omega

theorem Copy.countItems_eq_countP (c : Copy) :
    let number (st : StripState) : Nat := c.queue.countP fun t => decide (t.state = st)
    c.countItems = u16 (number .planned) ++ u16 (number .issued) ++ u16 (number .fenced) := by
  simp only [countItems, count_eq_countP]

/-- The selectors R167 codes: 0 reads by index, 1 by position. -/
theorem selectorOf_cases (b : Byte) :
    b = 0#8 ∧ selectorOf b = some .index ∨ b = 1#8 ∧ selectorOf b = some .position ∨
      (b ≠ 0#8 ∧ b ≠ 1#8) ∧ selectorOf b = none := by
  by_cases h0 : b = 0#8
  · exact .inl ⟨h0, if_pos h0⟩
  · by_cases h1 : b = 1#8
    · exact .inr (.inl ⟨h1, by simp [selectorOf, h1]⟩)
    · exact .inr (.inr ⟨⟨h0, h1⟩, by simp [selectorOf, h0, h1]⟩)

/-- The strip a READ STRIP with a good selector finds: by index, or by position in the queue (R83). -/
def Copy.readAt (c : Copy) (selector : Byte) (value : Nat) : Option Strip :=
  if selector = 0#8 then c.queue.find? fun t => decide (t.index = value) else c.queue[value]?

/-- READ STRIP: refused for its slot, its selector, its value and the copy's state, in that order; otherwise answered
with the items of the strip it finds, or of an unused slot (R83). -/
theorem exec_readStrip (slot selector : Byte) (value : Word) (s : State) :
    exec (.readStrip slot selector value) s = .next (s.ifTaken .plan (
      match slotOf slot with
      | none => s.replied .plan .badArg []
      | some k =>
        if selector ≠ 0#8 ∧ selector ≠ 1#8 then s.replied .plan .badArg []
        else if 4095 < value.toNat then s.replied .plan .badArg []
        else if (s.copy k).state = .free ∨ (s.copy k).state = .clearing then s.replied .plan .badState []
        else s.replied .plan .ok
          (((s.copy k).readAt selector value.toNat).elim (s.copy k).unusedItems (s.copy k).stripItems))) := by
  refine next_onCopy (fun h => by rw [h]) fun k h => ?_
  rw [h]
  obtain ⟨rfl, hsel⟩ | ⟨rfl, hsel⟩ | ⟨hne, hsel⟩ := selectorOf_cases selector
  · simp only [hsel, State.take_answer, State.take_copy]
    refine Eq.trans (if_congr Iff.rfl rfl (if_congr Iff.rfl rfl ?_)) (if_neg (by decide)).symm
    rw [Copy.readAt, if_pos rfl, ← Copy.strip?]
    cases (s.copy k).strip? value.toNat <;> rfl
  · simp only [hsel, State.take_answer, State.take_copy]
    refine Eq.trans (if_congr Iff.rfl rfl (if_congr Iff.rfl rfl ?_)) (if_neg (by decide)).symm
    rw [Copy.readAt, if_neg (by decide)]
    cases (s.copy k).queue[value.toNat]? <;> rfl
  · simp only [hsel, if_pos hne, State.take_answer]

theorem stripStateBytes_eq (a : StripState) : stripStateBytes a = match a with
    | .planned => [0x01#8]
    | .issued => [0x02#8]
    | .fenced => [0x03#8] := by
  cases a <;> rfl

theorem directionBytes_eq (d : Direction) : directionBytes d = [if d = .reverse then 1#8 else 0#8] := by
  cases d <;> rfl

/-- A holder in an answer is its spindle's number, or 0 for none (R83). -/
theorem holderBytes_eq (holder : Option SpindleId) : u8 ((holder.map spindleNumber).getD 0) = match holder with
    | none => [0x00#8]
    | some n => u8 (n.val + 1) := by
  cases holder <;> rfl

theorem footprintBytes_eq (footprint : Option Footprint) : footprintBytes footprint = match footprint with
    | none => [0x00#8, 0x00#8, 0x00#8, 0x00#8]
    | some fp => u8 fp.tx0 ++ u8 fp.ty0 ++ u8 fp.tx1 ++ u8 fp.ty1 := by
  cases footprint <;> rfl

theorem leaseRemaining_eq (lease : Option Lease) : (lease.map Lease.remaining).getD 0 = match lease with
    | some l => l.remaining
    | none => 0 := by
  cases lease <;> rfl

/-- Settles O40: each request's checks in order, and the items of the strip read. -/
theorem clearPlanAndReadStrip : Obligations.ClearPlanAndReadStrip := by
  intro slot selector value s number numbers
  have hcounts (k : CopySlot) : (s.copy k).countItems = numbers k := (s.copy k).countItems_eq_countP
  constructor
  · refine next_onCopy (fun h => by rw [h]) fun k h => ?_
    rw [h]
    simp only [State.take_answer, State.take_copy]
    refine if_congr Iff.rfl rfl ?_
    rw [← Copy.count_planned_eq, ← State.take_answer]
    rfl
  · rw [exec_readStrip]
    refine congrArg Host.Outcome.next (congrArg (s.ifTaken .plan) ?_)
    cases slotOf slot with
    | none => rfl
    | some k =>
      refine if_congr Iff.rfl rfl (if_congr Iff.rfl rfl (if_congr Iff.rfl rfl ?_))
      rw [Copy.readAt]
      generalize (if selector = 0#8 then _ else _ : Option Strip) = found
      cases found with
      | none => rw [Option.elim_none, Copy.unusedItems, hcounts]
      | some t =>
        -- Where the statement stands in a file of its own, its matches are not those of the lemmas, but equal by `rfl`.
        simp only [Option.elim_some, Copy.stripItems, Copy.position, geometryBytes, Strip.geometry, stripStateBytes_eq,
          directionBytes_eq, holderBytes_eq, footprintBytes_eq, leaseRemaining_eq, flag, hcounts, List.append_assoc] <;>
          rfl

end Sys2Proof.Machine

namespace Sys2Proof.Machine

/-! ## Reservation zones (R91) -/

theorem Zone.meets_eq_true_iff (a b : Zone) : a.meets b = true ↔
    (a.row0 ≤ b.row1 ∧ b.row0 ≤ a.row1) ∧ a.col0 ≤ b.col1 ∧ b.col0 ≤ a.col1 := by
  simp only [meets, Bool.and_eq_true, decide_eq_true_eq]
  tauto

theorem Zone.meets_comm (a b : Zone) : a.meets b = b.meets a := by
  rw [Bool.eq_iff_iff, meets_eq_true_iff, meets_eq_true_iff, and_comm (a := a.row0 ≤ b.row1),
    and_comm (a := a.col0 ≤ b.col1)]

/-- Settles O45: a zone's near edge lies within the copy, so the clipping of the other's far edge never decides. -/
theorem zonesMeet : Obligations.ZonesMeet := by
  intro c t u ht hu htl hul htw huw
  have reaches {extent near far : Nat} (h : near < extent) :
      near - c.margin ≤ min (extent - 1) (far + c.margin) ↔ near ≤ far + 2 * c.margin := by omega
  rw [Zone.meets_eq_true_iff]
  exact and_congr (and_congr (reaches ht) (reaches hu)) (and_congr (reaches (by omega)) (reaches (by omega)))

/-- Two copies of one extent and one margin: a place has the same zone in both (R91). -/
structure Copy.SameExtent (c d : Copy) : Prop where
  w : d.w = c.w
  h : d.h = c.h
  margin : d.margin = c.margin

theorem Copy.SameExtent.refl (c : Copy) : c.SameExtent c := ⟨rfl, rfl, rfl⟩

theorem Copy.SameExtent.trans {a b c : Copy} (h1 : a.SameExtent b) (h2 : b.SameExtent c) : a.SameExtent c :=
  ⟨h2.w.trans h1.w, h2.h.trans h1.h, h2.margin.trans h1.margin⟩

theorem Copy.SameExtent.zoneOf {c d : Copy} (h : c.SameExtent d) {t u : Strip} (hrow : u.row = t.row)
    (hfirst : u.first = t.first) (hlength : u.length = t.length) : zoneOf d u = zoneOf c t := by
  rw [Machine.zoneOf, Machine.zoneOf, h.w, h.h, h.margin, hrow, hfirst, hlength]

/-- Strip u reserves no more than strip t: it is PLANNED, or held where and by whom t is held. -/
structure Strip.ReservesNoMore (t u : Strip) : Prop where
  index : u.index = t.index
  held : u.state ≠ .planned →
    t.state ≠ .planned ∧ u.holder = t.holder ∧ u.row = t.row ∧ u.first = t.first ∧ u.length = t.length

theorem Strip.ReservesNoMore.refl (t : Strip) : t.ReservesNoMore t := ⟨rfl, fun h => ⟨h, rfl, rfl, rfl, rfl⟩⟩

/-- A PLANNED strip reserves nothing. -/
theorem Strip.ReservesNoMore.of_planned {t u : Strip} (hi : u.index = t.index) (hu : u.state = .planned) :
    t.ReservesNoMore u := ⟨hi, fun h => absurd hu h⟩

theorem Strip.released_reserves (t : Strip) : t.ReservesNoMore t.released := .of_planned rfl rfl

/-- A fence keeps the zone of a strip that is held. -/
theorem Strip.fenced_reserves {t : Strip} (h : t.state ≠ .planned) : t.ReservesNoMore t.fenced :=
  ⟨rfl, fun _ => ⟨h, rfl, rfl, rfl, rfl⟩⟩

/-- Copy d adds no zone to those of copy c: if the indices of c are distinct then so are those of d, and each held strip
of d has its zone and its holder from a held strip of c. -/
def Copy.AddsNoZone (c d : Copy) : Prop :=
  (c.queue.map Strip.index).Nodup → (d.queue.map Strip.index).Nodup ∧
    ∀ u ∈ d.queue, u.state ≠ .planned →
      ∃ t ∈ c.queue, t.state ≠ .planned ∧ t.holder = u.holder ∧ zoneOf c t = zoneOf d u

section
variable {a b c d : Copy}

/-- Zones that were apart stay apart where none is added. -/
theorem Copy.AddsNoZone.zonesApart (h : c.AddsNoZone d) (hc : c.zonesApart) : d.zonesApart := by
  obtain ⟨hn, hapart⟩ := hc
  obtain ⟨hn', hfrom⟩ := h hn
  refine ⟨hn', fun u hu v hv hus hvs hne => ?_⟩
  obtain ⟨t, ht, hts, hth, htz⟩ := hfrom u hu hus
  obtain ⟨w, hw, hws, hwh, hwz⟩ := hfrom v hv hvs
  rw [← htz, ← hwz]
  exact hapart t ht w hw hts hws (by rwa [hth, hwh])

theorem Copy.AddsNoZone.trans (h1 : a.AddsNoZone b) (h2 : b.AddsNoZone c) : a.AddsNoZone c := by
  intro hn
  obtain ⟨hnb, hb⟩ := h1 hn
  obtain ⟨hnc, hc⟩ := h2 hnb
  refine ⟨hnc, fun u hu hus => ?_⟩
  obtain ⟨t, ht, hts, hth, htz⟩ := hc u hu hus
  obtain ⟨v, hv, hvs, hvh, hvz⟩ := hb t ht hts
  exact ⟨v, hv, hvs, hvh.trans hth, hvz.trans htz⟩

/-- Each strip of d comes from a strip of c that reserves as much, in a copy of the same extent. -/
theorem Copy.AddsNoZone.of_mem (he : c.SameExtent d)
    (hn : (c.queue.map Strip.index).Nodup → (d.queue.map Strip.index).Nodup)
    (hq : (c.queue.map Strip.index).Nodup → ∀ u ∈ d.queue, ∃ t ∈ c.queue, t.ReservesNoMore u) : c.AddsNoZone d := by
  refine fun hc => ⟨hn hc, fun u hu hus => ?_⟩
  obtain ⟨t, ht, htu⟩ := hq hc u hu
  obtain ⟨hts, hholder, hrow, hfirst, hlength⟩ := htu.held hus
  exact ⟨t, ht, hts, hholder.symm, (he.zoneOf hrow hfirst hlength).symm⟩

/-- Strips changed in their places, each reserving no more than before, if their indices are distinct. -/
theorem Copy.AddsNoZone.of_map {g : Strip → Strip} (hq : d.queue = c.queue.map g) (he : c.SameExtent d)
    (hi : ∀ t, (g t).index = t.index)
    (hg : (c.queue.map Strip.index).Nodup → ∀ t ∈ c.queue, t.ReservesNoMore (g t)) : c.AddsNoZone d := by
  refine .of_mem he (fun hn => ?_) fun hn u hu => ?_
  · rwa [hq, List.map_map, show Strip.index ∘ g = Strip.index from funext hi]
  · rw [hq] at hu
    obtain ⟨t, ht, rfl⟩ := List.mem_map.mp hu
    exact ⟨t, ht, hg hn t ht⟩

/-- A copy whose strip table stays as it is. -/
theorem Copy.AddsNoZone.of_queue (hq : d.queue = c.queue) (he : c.SameExtent d) : c.AddsNoZone d :=
  .of_map (g := id) (by simp [hq]) he (fun _ => rfl) fun _ t _ => .refl t

theorem Copy.AddsNoZone.refl (c : Copy) : c.AddsNoZone c := .of_queue rfl (.refl c)

/-- Strips removed. -/
theorem Copy.AddsNoZone.of_filter {p : Strip → Bool} (hq : d.queue = c.queue.filter p) (he : c.SameExtent d) :
    c.AddsNoZone d := by
  refine .of_mem he (fun hn => ?_) fun _ u hu => ⟨u, (List.mem_filter.mp (hq ▸ hu)).1, .refl u⟩
  rw [hq]
  exact hn.sublist (List.filter_sublist.map _)

/-- An empty strip table has no zone. -/
theorem Copy.AddsNoZone.of_empty (hq : d.queue = []) : c.AddsNoZone d := fun _ => by simp [hq]

/-- A strip changed in its place. -/
theorem Copy.AddsNoZone.updateStrip (i : Nat) {f : Strip → Strip} (hf : ∀ t : Strip, t.ReservesNoMore (f t)) :
    c.AddsNoZone (c.updateStrip i f) := by
  have hg (t : Strip) : t.ReservesNoMore (if t.index = i then f t else t) := by
    split
    · exact hf t
    · exact .refl t
  exact .of_map rfl ⟨rfl, rfl, rfl⟩ (fun t => (hg t).index) fun _ t _ => hg t

/-- A strip moved to the tail. -/
theorem Copy.AddsNoZone.requeueStrip (i : Nat) {f : Strip → Strip} (hf : ∀ t : Strip, t.ReservesNoMore (f t)) :
    c.AddsNoZone (c.requeueStrip i f) := by
  refine .of_mem ⟨rfl, rfl, rfl⟩ (fun hn => ?_) fun _ u hu => ?_
  · have hp : ((c.queue.filter fun t => decide (t.index ≠ i)) ++ c.queue.filter fun t => decide (t.index = i)).Perm
        c.queue := by
      have := List.filter_append_perm (fun t : Strip => decide (t.index ≠ i)) c.queue
      simpa using this
    have hidx : Strip.index ∘ f = Strip.index := funext fun t => (hf t).index
    rw [Copy.requeueStrip, List.map_append, List.map_map, hidx, ← List.map_append]
    exact (hp.map _).nodup_iff.mpr hn
  · obtain hu | hu := List.mem_append.mp hu
    · exact ⟨u, (List.mem_filter.mp hu).1, .refl u⟩
    · obtain ⟨t, ht, rfl⟩ := List.mem_map.mp hu
      exact ⟨t, (List.mem_filter.mp ht).1, hf t⟩

/-- A PLANNED strip put to the tail under an unused index. -/
theorem Copy.AddsNoZone.append {t : Strip} (hi : t.index ∉ c.queue.map Strip.index) (hp : t.state = .planned) :
    c.AddsNoZone { c with queue := c.queue ++ [t] } := by
  refine fun hn => ⟨?_, fun u hu hus => ?_⟩
  · rw [List.map_append, List.map_singleton]
    exact List.nodup_append.mpr ⟨hn, List.nodup_singleton _, fun x hx y hy => by
      rintro rfl
      exact hi (List.mem_singleton.mp hy ▸ hx)⟩
  · obtain hu | hu := List.mem_append.mp hu
    · exact ⟨u, hu, hus, rfl, rfl⟩
    · exact absurd (List.mem_singleton.mp hu ▸ hp) hus

/-- The descriptors of a plan make PLANNED strips (R69). -/
theorem Copy.AddsNoZone.takeDescriptors (c : Copy) (ds : List Descriptor) :
    c.AddsNoZone (takeDescriptors c ds).1 ∧ c.SameExtent (takeDescriptors c ds).1 := by
  unfold Machine.takeDescriptors
  generalize ({ accepted := 0, clipped := 0, outOfExtent := 0, overflow := 0 } : LoadCounts) = n
  induction ds generalizing c n with
  | nil => exact ⟨.refl c, .refl c⟩
  | cons d ds ih =>
    have h1 : c.AddsNoZone (takeDescriptor (c, n) d).1 ∧ c.SameExtent (takeDescriptor (c, n) d).1 := by
      obtain e | ⟨length, e⟩ := takeDescriptor_cases c n d <;> rw [e]
      · exact ⟨.refl c, .refl c⟩
      · exact ⟨.append c.lowestUnused_notMem rfl, rfl, rfl, rfl⟩
    obtain ⟨h2, e2⟩ := ih (takeDescriptor (c, n) d).1 (takeDescriptor (c, n) d).2
    exact ⟨h1.1.trans h2, h1.2.trans e2⟩

/-- A PLANNED strip that passes the zone test is issued (R89, R92): its zone meets none of another spindle's. -/
theorem Copy.zonesApart.issue (hc : c.zonesApart) {n : SpindleId} {t : Strip} (ht : t ∈ c.queue)
    (hz : c.zoneFree n t = true) (fp : Footprint) (leaseTime : Nat) :
    (c.updateStrip t.index (Strip.issuedTo n fp leaseTime)).zonesApart := by
  obtain ⟨hn, hapart⟩ := hc
  rw [Copy.zoneFree_eq_true_iff] at hz
  have hindices := Copy.updateStrip_indices c t.index (Strip.issuedTo n fp leaseTime) fun _ => rfl
  refine ⟨hindices ▸ hn, fun u hu v hv hus hvs hne => ?_⟩
  have origin {x : Strip} (hx : x ∈ (c.updateStrip t.index (Strip.issuedTo n fp leaseTime)).queue) :
      x = Strip.issuedTo n fp leaseTime t ∨ x ∈ c.queue := by
    obtain ⟨y, hy, rfl⟩ := List.mem_map.mp hx
    split
    · next hi => exact .inl (congrArg _ (List.inj_on_of_nodup_map hn hy ht hi))
    · exact .inr hy
  obtain rfl | hu := origin hu <;> obtain rfl | hv := origin hv
  · exact absurd rfl hne
  · exact hz v hv hvs fun e => hne e.symm
  · rw [Zone.meets_comm]
    exact hz u hu hus hne
  · exact hapart u hu v hv hus hvs hne

end

end Sys2Proof.Machine

namespace Sys2Proof.Machine

/-! ## What one piece of a command does to the zones (R89, R91) -/

section
variable {s t : State}

/-- The copies as they were. -/
theorem ZonesApart.of_copies (h : ZonesApart s) (hc : t.copies = s.copies) : ZonesApart t := fun k => by
  rw [State.copy, hc]
  exact h k

/-- No copy with a new zone. -/
theorem ZonesApart.of_addsNoZone (h : ZonesApart s) (hc : ∀ k, (s.copy k).AddsNoZone (t.copy k)) : ZonesApart t :=
  fun k => (hc k).zonesApart (h k)

theorem ZonesApart.setCopy (h : ZonesApart s) (k : CopySlot) {c : Copy} (hc : (s.copy k).AddsNoZone c) :
    ZonesApart (s.setCopy k c) := by
  refine h.of_addsNoZone fun j => ?_
  by_cases hj : j = k
  · rw [hj, State.setCopy_copy_same]
    exact hc
  · rw [State.setCopy_copy_ne _ _ _ _ hj]
    exact .refl _

theorem ZonesApart.modifyCopy (h : ZonesApart s) (k : CopySlot) {f : Copy → Copy}
    (hf : (s.copy k).AddsNoZone (f (s.copy k))) : ZonesApart (s.modifyCopy k f) := h.setCopy k hf

/-- A copy changed but for its strip table and its extent. -/
theorem ZonesApart.modifyRecord (h : ZonesApart s) (k : CopySlot) {f : Copy → Copy}
    (hq : (f (s.copy k)).queue = (s.copy k).queue) (he : (s.copy k).SameExtent (f (s.copy k))) :
    ZonesApart (s.modifyCopy k f) := h.modifyCopy k (.of_queue hq he)

/-- The strips that held strips name changed in their places, none of them reserving more than before. -/
theorem ZonesApart.mapNamed (h : ZonesApart s) (hs : List Held) {f : Copy → Strip → Strip}
    (hi : ∀ c u, (f c u).index = u.index)
    (hf : ∀ k, ((s.copy k).queue.map Strip.index).Nodup → ∀ u ∈ (s.copy k).queue, names hs k u.index = true →
      u.ReservesNoMore (f (s.copy k) u)) : ZonesApart (s.mapNamed hs f) := by
  refine h.of_addsNoZone fun k => ?_
  rw [State.mapNamed_copy]
  refine .of_map rfl ⟨rfl, rfl, rfl⟩ (fun u => ?_) fun hn u hu => ?_
  · split
    · exact hi _ u
    · rfl
  · split
    · next hnamed => exact hf k hn u hu hnamed
    · exact .refl u

theorem ZonesApart.restartLeases (h : ZonesApart s) (hs : List Held) : ZonesApart (s.restartLeases hs) :=
  h.mapNamed hs (fun _ _ => rfl) fun _ _ _ _ _ => ⟨rfl, fun hu => ⟨hu, rfl, rfl, rfl, rfl⟩⟩

/-- A strip that a held strip names, where indices are distinct, is the one its key finds. -/
theorem State.heldIn_of_names {hs : List Held} {st : StripState} (hh : ∀ g ∈ hs, s.heldIn g st = true) {k : CopySlot}
    (hn : ((s.copy k).queue.map Strip.index).Nodup) {u : Strip} (hu : u ∈ (s.copy k).queue)
    (hnamed : names hs k u.index = true) : u.state = st := by
  obtain ⟨g, hg, hkey⟩ := List.any_eq_true.mp hnamed
  obtain ⟨rfl, hindex⟩ : g.key.copy = k ∧ g.key.index = u.index := by simpa using hkey
  have hst := hh g hg
  unfold State.heldIn at hst
  split at hst
  · next t ht =>
    obtain ⟨ht, hti⟩ := Copy.strip?_some ht
    rw [← List.inj_on_of_nodup_map hn ht hu (hti.trans hindex)]
    simpa using hst
  · cases hst

/-- A fence of ISSUED strips: a FENCED strip keeps its zone (R126). -/
theorem ZonesApart.fenceAll (h : ZonesApart s) (n : SpindleId) {hs : List Held}
    (hh : ∀ g ∈ hs, s.heldIn g .issued = true) : ZonesApart (s.fenceAll n hs) := by
  have hf : ZonesApart (s.mapNamed hs fun _ u => u.fenced) := h.mapNamed hs (fun _ _ => rfl) fun k hn u hu hnamed =>
    Strip.fenced_reserves (by rw [State.heldIn_of_names hh hn hu hnamed]; decide)
  exact hf

/-- A strip looked up after held strips' strips were changed in their places. -/
theorem State.strip?_mapNamed (s : State) (hs : List Held) {f : Copy → Strip → Strip}
    (hi : ∀ c u, (f c u).index = u.index) (key : StripKey) : (s.mapNamed hs f).strip? key =
      (s.strip? key).map fun u => if names hs key.copy u.index then f (s.copy key.copy) u else u := by
  have hp : (fun t : Strip => decide (t.index = key.index)) ∘
      (fun u => if names hs key.copy u.index then f (s.copy key.copy) u else u) =
        fun t => decide (t.index = key.index) := by
    funext u
    simp only [Function.comp_apply]
    split
    · rw [hi]
    · rfl
  rw [State.strip?, State.mapNamed_copy, Copy.strip?, List.find?_map, hp]
  rfl

theorem State.heldIn_mapNamed (s : State) (hs : List Held) {f : Copy → Strip → Strip}
    (hi : ∀ c u, (f c u).index = u.index) (hst : ∀ c u, (f c u).state = u.state) (g : Held) (st : StripState) :
    (s.mapNamed hs f).heldIn g st = s.heldIn g st := by
  rw [State.heldIn, State.heldIn, s.strip?_mapNamed hs hi]
  cases s.strip? g.key with
  | none => rfl
  | some u =>
    show decide ((if names hs g.key.copy u.index then _ else u).state = st) = decide (u.state = st)
    split
    · rw [hst]
    · rfl

theorem State.heldIn_of_mem_issuedStrips {n : SpindleId} {g : Held} (hg : g ∈ s.issuedStrips n) :
    s.heldIn g .issued = true := (List.mem_filter.mp hg).2

theorem ZonesApart.grantTest (h : ZonesApart s) : ZonesApart s.grantTest := h.of_copies s.grantTest_copies

/-- A strip that the search found is issued (R89, R92). -/
theorem ZonesApart.issueStrip (h : ZonesApart s) {n : SpindleId} {k : CopySlot} {u : Strip}
    (hu : s.search n k = some u) : ZonesApart (s.issueStrip n k u) := by
  intro j
  by_cases hj : j = k
  · rw [hj, State.issueStrip_copy_same]
    obtain ⟨before, after, hq, -, htests, -⟩ := Copy.find?_plannedStrips_some hu
    exact (h k).issue (by simp [hq]) (Bool.and_eq_true_iff.mp htests).1 _ _
  · rw [State.issueStrip_copy_ne _ _ _ _ _ hj]
    exact h j

/-- A strip leaves the held states (R77). -/
theorem ZonesApart.leave (h : ZonesApart s) (k : CopySlot) (r : Strip) (record : Bool) :
    ZonesApart (s.leave k r record) := by
  refine h.of_addsNoZone fun j => ?_
  by_cases hj : j = k
  · rw [hj, State.leave_copy_same]
    exact .updateStrip _ Strip.released_reserves
  · rw [State.leave_copy_ne _ _ _ _ _ hj]
    exact .refl _

theorem ZonesApart.leaveAndGrant (h : ZonesApart s) (k : CopySlot) (r : Strip) : ZonesApart (s.leaveAndGrant k r) :=
  (h.leave k r true).of_copies (s.leaveAndGrant_copies k r)

theorem ZonesApart.foldl {α : Type} (h : ZonesApart s) (f : State → α → State)
    (hf : ∀ v a, ZonesApart v → ZonesApart (f v a)) (l : List α) : ZonesApart (l.foldl f s) := by
  induction l generalizing s with
  | nil => exact h
  | cons a l ih => exact ih (hf s a h)

/-- A strip is removed. -/
theorem ZonesApart.removeStrip (h : ZonesApart s) (k : CopySlot) (i : Nat) :
    ZonesApart (s.modifyCopy k fun c => c.removeStrip i) := h.modifyCopy k (.of_filter rfl ⟨rfl, rfl, rfl⟩)

/-- A strip goes to the tail, its issue number or its retry count changed (R79, R130). -/
theorem ZonesApart.requeueStrip (h : ZonesApart s) (k : CopySlot) (i : Nat) {f : Strip → Strip}
    (hf : ∀ u : Strip, u.ReservesNoMore (f u)) : ZonesApart (s.modifyCopy k fun c => c.requeueStrip i f) :=
  h.modifyCopy k (.requeueStrip i hf)

theorem ZonesApart.completePass (h : ZonesApart s) (k : CopySlot) : ZonesApart (s.completePass k) :=
  h.modifyRecord k (f := fun c => { c with state := .ready, planClosed := false }) rfl ⟨rfl, rfl, rfl⟩

theorem ZonesApart.testPass (h : ZonesApart s) (k : CopySlot) : ZonesApart (s.testPass k) := by
  unfold State.testPass
  dsimp only
  split
  · exact h.completePass k
  · exact h

/-- A report decided changes no strip but for its lease and its merge mark (R124, R140). -/
theorem ZonesApart.decideReport (h : ZonesApart s) (n : SpindleId) (r : Report) : ZonesApart (s.decideReport n r) := by
  unfold State.decideReport
  split
  · exact h
  · exact h
  · split
    · exact h
    · next key _ =>
      refine ZonesApart.modifyCopy (s := s.modifySpindle n _) h key.copy (.updateStrip key.index fun u => ?_)
      exact ⟨rfl, fun hu => ⟨hu, rfl, rfl, rfl, rfl⟩⟩
  · exact h

/-- Of the pieces of hand-on work only an evaluation adds a zone, and it issues a strip that the search found (R97). -/
theorem ZonesApart.perform (h : ZonesApart s) (c : Chore) : ZonesApart (s.perform c) := by
  cases c with
  | evaluate n =>
    show ZonesApart (s.autoPrefetch n)
    obtain ⟨e, -⟩ | ⟨k, u, hp, e, -⟩ := s.autoPrefetch_cases n <;> rw [e]
    · exact h
    · obtain ⟨-, -, -, -, -, hs⟩ := State.prefetched_some hp
      exact h.issueStrip hs
  | grant => exact h.grantTest
  | report n =>
    show ZonesApart (s.decideWaiting n)
    unfold State.decideWaiting
    split
    · exact h
    · exact ZonesApart.decideReport (s := s.modifySpindle n _) h n _

theorem ZonesApart.handOn (h : ZonesApart s) (ts : List Chore) : ZonesApart (s.handOn ts) :=
  s.handOn_induct ts h fun _ c _ hu => hu.perform c

theorem ZonesApart.request (h : ZonesApart s) (p : PortId) {f : State → State}
    (hf : ∀ v, ZonesApart v → ZonesApart (f v)) : ZonesApart (s.request p f) := by
  rw [State.request_eq]
  unfold State.ifTaken
  split
  · exact hf _ h
  · exact h

theorem ZonesApart.requestAnyState (h : ZonesApart s) (p : PortId) {f : State → State}
    (hf : ∀ v, ZonesApart v → ZonesApart (f v)) : ZonesApart (s.requestAnyState p f) := by
  unfold State.requestAnyState
  split
  · exact hf _ h
  · exact h

theorem ZonesApart.onCopy (h : ZonesApart s) (b : Byte) {f : CopySlot → State → State}
    (hf : ∀ k v, ZonesApart v → ZonesApart (f k v)) : ZonesApart (s.onCopy b f) := by
  refine h.request .plan fun v hv => ?_
  cases slotOf b with
  | none => exact hv
  | some k => exact hf k v hv

end

/-! ## Every command keeps the zones apart -/

/-- A command answers, and the zones of the strips held by different spindles stay apart. -/
def KeepsZonesApart (i : Instr) : Prop := ∀ s, ZonesApart s → ∃ t, exec i s = .next t ∧ ZonesApart t

/-! ### Requests that leave the copies as they are -/

section
variable {i : Instr}

/-- A request whose own rule leaves the copies as they are. -/
theorem KeepsZonesApart.of_request {p : PortId} {f : State → State} (he : ∀ s, exec i s = .next (s.request p f))
    (hf : ∀ v, (f v).copies = v.copies) : KeepsZonesApart i :=
  fun s h => ⟨_, he s, h.request p fun v hv => hv.of_copies (hf v)⟩

/-- A request that carries a copy slot and whose rule for a good slot leaves the copies as they are. -/
theorem KeepsZonesApart.of_onCopy {b : Byte} {f : CopySlot → State → State}
    (he : ∀ s, exec i s = .next (s.onCopy b f)) (hf : ∀ k v, (f k v).copies = v.copies) : KeepsZonesApart i :=
  fun s h => ⟨_, he s, h.onCopy b fun k v hv => hv.of_copies (hf k v)⟩

end

theorem State.freeStaging_copies (s : State) (i : Fin 4) : (s.freeStaging i).copies = s.copies := by
  unfold freeStaging
  split <;> rfl

theorem keepsZonesApart_badFrame (p : PortId) (flaw : FrameFlaw) : KeepsZonesApart (.badFrame p flaw) := by
  refine .of_request (fun _ => rfl) fun v => ?_
  show (if losesBlock p flaw then v.latchScan .blockBad else v).copies = _
  split <;> rfl

theorem keepsZonesApart_dropTile (tx ty : Byte) : KeepsZonesApart (.dropTile tx ty) := by
  refine .of_request (fun _ => rfl) fun v => ?_
  split
  · rfl
  · exact v.freeStaging_copies _

/-! ### Frames and resets -/

theorem ZonesApart.poll {s : State} (h : ZonesApart s) (p : PortId) (phase : PollPhase) :
    ZonesApart (s.poll p phase) := by
  cases phase <;> unfold State.poll <;> dsimp only <;> split <;> exact h

theorem keepsZonesApart_fetch (p : PortId) (crcGood : Bool) (clocked : Nat) :
    KeepsZonesApart (.fetch p crcGood clocked) := by
  refine fun s h => ⟨_, rfl, ?_⟩
  split
  · exact h.poll p .whole
  · split
    · dsimp only
      split <;> exact h
    · exact h

theorem keepsZonesApart_statusPoll (p : PortId) (phase : PollPhase) : KeepsZonesApart (.statusPoll p phase) :=
  fun _ h => ⟨_, rfl, h.poll p phase⟩

theorem ZonesApart.resetSpindle {s : State} (h : ZonesApart s) (n : SpindleId) : ZonesApart (s.resetSpindle n) := by
  have hf := h.fenceAll n fun _ => State.heldIn_of_mem_issuedStrips (n := n)
  unfold State.resetSpindle
  dsimp only
  refine ZonesApart.grantTest ?_
  split <;> exact hf

theorem keepsZonesApart_portReset (p : PortId) : KeepsZonesApart (.portReset p) := by
  refine fun s h => ⟨_, rfl, h.requestAnyState p fun v hv => ?_⟩
  cases p with
  | plan => exact hv
  | scan => exact ZonesApart.foldl (s := v.resetPort .scan) hv _ (fun v i h => h.of_copies (v.freeStaging_copies i)) _
  | spindle n => exact ZonesApart.resetSpindle (s := v.resetPort (.spindle n)) hv n

/-- A WARM RESET fences the ISSUED strips and leaves the others as they are held (R84, R126). -/
theorem Strip.warmReset_reserves (t : Strip) : t.ReservesNoMore t.warmReset := by
  unfold warmReset
  split
  · next h => exact ⟨rfl, fun _ => ⟨by rw [h]; decide, rfl, rfl, rfl, rfl⟩⟩
  · exact ⟨rfl, fun h => ⟨h, rfl, rfl, rfl, rfl⟩⟩

theorem Copy.AddsNoZone.warmReset (c : Copy) : c.AddsNoZone c.warmReset := by
  have kept (d : Copy) (hq : d.queue = c.queue.map Strip.warmReset) (he : c.SameExtent d) : c.AddsNoZone d :=
    .of_map hq he (fun t => t.warmReset_reserves.index) fun _ t _ => t.warmReset_reserves
  unfold Copy.warmReset
  dsimp only
  split
  · exact .of_empty rfl
  all_goals exact kept _ rfl ⟨rfl, rfl, rfl⟩

theorem keepsZonesApart_warmReset : KeepsZonesApart .warmReset :=
  fun _ h => ⟨_, rfl, h.requestAnyState .plan fun v hv => hv.of_addsNoZone fun k => by
    show (v.copies.get k).AddsNoZone ((v.copies.map Copy.warmReset).get k)
    rw [Six.get_map]
    exact .warmReset _⟩

/-- Held in reset every copy is FREE (R47). -/
theorem ZonesApart.holdReset (s : State) : ZonesApart s.holdReset :=
  zonesApart_reset.of_copies rfl

theorem keepsZonesApart_powerOn (resetHigh : Bool) : KeepsZonesApart (.powerOn resetHigh) := by
  refine fun s _ => ⟨_, rfl, ?_⟩
  split <;> exact .holdReset s

theorem keepsZonesApart_resetPin (periods : Nat) : KeepsZonesApart (.resetPin periods) := by
  refine fun s h => ⟨_, rfl, ?_⟩
  split
  · exact .holdReset s
  · exact h

theorem keepsZonesApart_resetRelease : KeepsZonesApart .resetRelease := by
  refine fun s h => ⟨_, rfl, ?_⟩
  split <;> exact h

/-! ### Time, and the completions of a preload and of a seal -/

/-- A tick lowers leases, or expires them: the strips fenced are ISSUED (R121, R125). -/
theorem ZonesApart.leaseTick {s : State} (h : ZonesApart s) (n : SpindleId) : ZonesApart (s.leaseTick n) := by
  have ha : ZonesApart (s.advanceLeases n) :=
    h.mapNamed _ (fun _ _ => rfl) fun _ _ _ _ _ => ⟨rfl, fun hu => ⟨hu, rfl, rfl, rfl, rfl⟩⟩
  unfold State.leaseTick State.expire
  split
  · exact ha
  · refine (ha.fenceAll n fun g hg => ?_ :)
    refine (s.heldIn_mapNamed _ (f := fun _ u => u.tickLease) (fun _ _ => rfl) (fun _ _ => rfl) g .issued).trans ?_
    exact State.heldIn_of_mem_issuedStrips (List.mem_filter.mp hg).1

theorem ZonesApart.holdTick {s : State} (h : ZonesApart s) (n : SpindleId) : ZonesApart (s.holdTick n) := by
  unfold State.holdTick
  split
  · exact ZonesApart.handOn (s := s.endHold n) h _
  · exact h

theorem keepsZonesApart_millisecondTick (n : SpindleId) : KeepsZonesApart (.millisecondTick n) := by
  refine fun s h => ⟨_, rfl, ?_⟩
  split
  · exact h.holdTick n
  · exact h.leaseTick n

theorem keepsZonesApart_leaseExpiry (n : SpindleId) : KeepsZonesApart (.leaseExpiry n) := by
  refine fun s h => ⟨_, rfl, ?_⟩
  split
  · exact h.leaseTick n
  · exact h

theorem keepsZonesApart_holdCountdownEnd (n : SpindleId) : KeepsZonesApart (.holdCountdownEnd n) := by
  refine fun s h => ⟨_, rfl, ?_⟩
  split
  · exact h.holdTick n
  · exact h

theorem keepsZonesApart_rescanPreloadCompletion : KeepsZonesApart .rescanPreloadCompletion := by
  refine fun s h => ⟨_, rfl, ?_⟩
  repeat' split
  all_goals exact h

theorem keepsZonesApart_sealCompletion : KeepsZonesApart .sealCompletion := by
  refine fun s h => ⟨_, rfl, ?_⟩
  split
  · exact h
  · next i x _ =>
    split
    · exact h
    · next t _ =>
      refine ZonesApart.handOn (s := s.sealCompleted i x t) ?_ _
      exact h.of_copies (State.cancelScanHolds_keeps State.copies (fun _ _ => rfl) _)

end Sys2Proof.Machine

namespace Sys2Proof.Machine

/-! ### Copies -/

theorem keepsZonesApart_defineCopy (args : CopyArgs) : KeepsZonesApart (.defineCopy args) := by
  refine fun s h => ⟨_, rfl, h.onCopy _ fun k v hv => ?_⟩
  split
  · exact hv
  · split
    · exact hv
    · split
      · exact hv
      · split
        · exact hv
        · exact hv.setCopy k (.of_empty rfl)

theorem keepsZonesApart_clearCompletion (slot : CopySlot) : KeepsZonesApart (.clearCompletion slot) := by
  refine fun s h => ⟨_, rfl, ?_⟩
  split
  · exact h.modifyRecord slot (f := fun c => { c with state := .ready }) rfl ⟨rfl, rfl, rfl⟩
  · exact h

theorem ZonesApart.withdraw {s : State} (h : ZonesApart s) (k : CopySlot) (t : Strip) :
    ZonesApart (s.withdraw k t) := by
  unfold State.withdraw
  split
  · exact h.leave k t true
  · exact h

theorem ZonesApart.withdrawAll {s : State} (h : ZonesApart s) (k : CopySlot) : ZonesApart (s.withdrawAll k) := by
  unfold State.withdrawAll
  dsimp only
  split
  · exact h
  · exact (ZonesApart.foldl (s := { s with choices := s.choices + 1 }) h _ (fun _ t hv => hv.withdraw k t) _).handOn _

theorem keepsZonesApart_setPass (slot kind : Byte) (stepDown allowance : Word) :
    KeepsZonesApart (.setPass slot kind stepDown allowance) := by
  refine fun s h => ⟨_, rfl, h.onCopy _ fun k v hv => ?_⟩
  dsimp only
  split
  · exact hv
  · split
    · exact hv
    · have hp (p : Pass) (c : AnswerCode) (d : List Byte) :
          ZonesApart ((v.modifyCopy k fun c => c.setPass p).answer .plan c d) :=
        hv.modifyRecord k (f := fun c => c.setPass p) rfl ⟨rfl, rfl, rfl⟩
      split
      · exact (hp _ _ _).withdrawAll k
      · exact hp _ _ _

theorem keepsZonesApart_startPass (slot : Byte) : KeepsZonesApart (.startPass slot) := by
  refine fun s h => ⟨_, rfl, h.onCopy _ fun k v hv => ?_⟩
  dsimp only
  split
  · exact hv
  · split
    · exact hv
    · exact hv.modifyRecord k (f := fun c => { c with state := .cutting }) rfl ⟨rfl, rfl, rfl⟩

theorem keepsZonesApart_pauseCopy (slot : Byte) : KeepsZonesApart (.pauseCopy slot) := by
  refine fun s h => ⟨_, rfl, h.onCopy _ fun k v hv => ?_⟩
  split
  · exact hv
  · exact hv.modifyRecord k (f := fun c => { c with state := .paused }) rfl ⟨rfl, rfl, rfl⟩

theorem keepsZonesApart_resumeCopy (slot : Byte) : KeepsZonesApart (.resumeCopy slot) := by
  refine fun s h => ⟨_, rfl, h.onCopy _ fun k v hv => ?_⟩
  dsimp only
  split
  · exact hv
  · split
    · exact hv.completePass k
    · refine .handOn ?_ _
      exact hv.modifyRecord k (f := fun c => { c with state := .cutting }) rfl ⟨rfl, rfl, rfl⟩

theorem ZonesApart.freeCopy {s : State} (h : ZonesApart s) (k : CopySlot) : ZonesApart (s.freeCopy k) :=
  (h.foldl (fun v t => v.leave k t false) (fun _ t hv => hv.leave k t false) _).setCopy k (c := Copy.free)
    (.of_empty rfl)

theorem keepsZonesApart_closeCopy (slot : Byte) : KeepsZonesApart (.closeCopy slot) := by
  refine fun s h => ⟨_, rfl, h.onCopy _ fun k v hv => ?_⟩
  dsimp only
  split
  · exact hv
  · split
    · exact hv
    · split
      · exact ZonesApart.grantTest (s := (v.freeCopy k).answer .plan .ok []) (hv.freeCopy k)
      · exact hv.freeCopy k

theorem ZonesApart.fenceForUnbind {s : State} (h : ZonesApart s) (n : SpindleId) : ZonesApart (s.fenceForUnbind n) := by
  unfold State.fenceForUnbind
  dsimp only
  split
  · exact h
  · exact h.fenceAll n fun _ => State.heldIn_of_mem_issuedStrips

theorem keepsZonesApart_unbindSpindle (spindle : Byte) : KeepsZonesApart (.unbindSpindle spindle) := by
  refine fun s h => ⟨_, rfl, h.request _ fun v hv => ?_⟩
  split
  · exact hv
  · exact hv.fenceForUnbind _

theorem keepsZonesApart_readCopy (slot zero : Byte) : KeepsZonesApart (.readCopy slot zero) := by
  refine fun s h => ⟨_, rfl, h.onCopy _ fun k v hv => ?_⟩
  show ZonesApart (if flagOf zero = true ∧ (v.copy k).state ≠ .free then _ else v)
  split
  · exact hv.modifyRecord k (f := fun c => { c with counters := Counters.zero }) rfl ⟨rfl, rfl, rfl⟩
  · exact hv

/-! ### Plans -/

theorem ZonesApart.afterLoad {s : State} (h : ZonesApart s) (k : CopySlot) (accepted : Nat) (closed : Bool) :
    ZonesApart (s.afterLoad k accepted closed) := by
  have ht : ZonesApart (if closed then s.testPass k else s) := by
    split
    · exact h.testPass k
    · exact h
  unfold State.afterLoad
  dsimp only
  split
  · split
    · exact ht.handOn _
    · exact ht
  · exact h

theorem keepsZonesApart_loadPlan (slot : Byte) (ds : List Descriptor) : KeepsZonesApart (.loadPlan slot ds) := by
  refine fun s h => ⟨_, rfl, ?_⟩
  split
  · exact h.request .plan fun _ hv => hv
  · refine h.onCopy slot fun k v hv => ?_
    dsimp only
    split
    · exact hv
    · split
      · exact hv
      · split
        · exact hv
        · obtain ⟨hd, he⟩ := Copy.AddsNoZone.takeDescriptors (v.copy k) ds
          refine .afterLoad ?_ k _ _
          exact hv.setCopy k (hd.trans (.of_queue rfl ⟨rfl, rfl, rfl⟩))

theorem keepsZonesApart_clearPlan (slot : Byte) : KeepsZonesApart (.clearPlan slot) := by
  refine fun s h => ⟨_, rfl, h.onCopy _ fun k v hv => ?_⟩
  dsimp only
  split
  · exact hv
  · exact hv.setCopy k (.of_filter rfl ⟨rfl, rfl, rfl⟩)

/-! ### Issue, engine and queues -/

/-- A WAIT answer changes no copy, whatever it does to the wanted tile and the hold (R94, R95). -/
theorem State.waitForScan_copies (s : State) (n : SpindleId) (k : CopySlot) (key : TileKey) :
    (s.waitForScan n k key).copies = s.copies := by
  unfold waitForScan scanHold offerWanted
  dsimp only
  repeat' split
  all_goals rfl

theorem State.noStrip_copies (s : State) (n : SpindleId) (k : CopySlot) : (s.noStrip n k).copies = s.copies := by
  unfold noStrip
  split
  · rfl
  · split
    · rfl
    · split
      · rfl
      · exact s.waitForScan_copies n k _

theorem ZonesApart.takeFrom {s : State} (h : ZonesApart s) (n : SpindleId) (k : CopySlot) :
    ZonesApart (s.takeFrom n k) := by
  unfold State.takeFrom
  split
  · next t ht => exact (ZonesApart.issueStrip (s := s.answer (.spindle n) .ok _) h (k := k) ht).grantTest
  · exact h.of_copies (s.noStrip_copies n k)

theorem keepsZonesApart_takeStrip (n : SpindleId) : KeepsZonesApart (.takeStrip n) := by
  refine fun s h => ⟨_, rfl, h.request _ fun v hv => ?_⟩
  dsimp only
  split
  · exact hv
  · split
    · exact hv
    · split
      · exact hv
      · split
        · exact hv
        · exact hv.takeFrom n _
    all_goals exact hv

theorem keepsZonesApart_setPrefetch (n : SpindleId) (threshold : Word) : KeepsZonesApart (.setPrefetch n threshold) :=
  fun _ h => ⟨_, rfl, h.request _ fun v hv => ZonesApart.handOn (s := State.answer (v.modifySpindle n _) _ _ _) hv _⟩

theorem ZonesApart.placeCell {s : State} (h : ZonesApart s) (c : Computation) (g : Geometry) :
    ZonesApart (s.placeCell c g) := by
  have h1 := h.modifyRecord c.key.copy
    (f := fun cp => { cp with counters := cp.counters.countCell (s.computeTarget c g.row) }) rfl ⟨rfl, rfl, rfl⟩
  rw [State.placeCell_eq]
  exact h1

theorem keepsZonesApart_computeCell : KeepsZonesApart .computeCell := by
  refine fun s h => ⟨_, rfl, ?_⟩
  split
  · exact h
  · next c _ =>
    split
    · exact h
    · next t _ =>
      have hp := h.placeCell c t.geometry
      dsimp only
      split
      · refine .handOn ?_ _
        exact hp
      · exact hp

theorem keepsZonesApart_drawTargets (n : SpindleId) (count : Byte) : KeepsZonesApart (.drawTargets n count) := by
  refine fun s h => ⟨_, rfl, h.request _ fun v hv => ?_⟩
  split
  · exact hv
  · dsimp only
    split
    · exact hv
    · refine .handOn (.restartLeases ?_ _) _
      exact hv

theorem keepsZonesApart_rewindStrip (n : SpindleId) : KeepsZonesApart (.rewindStrip n) := by
  refine fun s h => ⟨_, rfl, h.request _ fun v hv => ?_⟩
  split
  · exact hv
  · split
    · refine ZonesApart.restartLeases ?_ [_]
      exact hv
    · exact hv

theorem keepsZonesApart_renew (n : SpindleId) : KeepsZonesApart (.renew n) :=
  fun _ h => ⟨_, rfl, h.request _ fun _ hv => hv.restartLeases _⟩

/-! ### Fences and holds -/

theorem ZonesApart.releaseStrip {s : State} (h : ZonesApart s) (k : CopySlot) (t : Strip) (action : FenceAction) :
    ZonesApart (s.releaseStrip k t action) := by
  have hl := h.leaveAndGrant k t
  unfold State.releaseStrip
  refine .handOn ?_ _
  cases action with
  | requeue => exact hl.requeueStrip k t.index fun u => ⟨rfl, fun hu => ⟨hu, rfl, rfl, rfl, rfl⟩⟩
  | discard => exact (hl.removeStrip k t.index).testPass k

theorem keepsZonesApart_releaseFence (slot : Byte) (index : Word) (action : Byte) :
    KeepsZonesApart (.releaseFence slot index action) := by
  refine fun s h => ⟨_, rfl, h.request _ fun v hv => ?_⟩
  split
  · split
    · exact hv
    · dsimp only
      split
      · exact hv
      · split
        · exact hv
        · split
          · exact hv
          · split
            · exact hv
            · exact hv.releaseStrip _ _ _
  · exact hv

theorem keepsZonesApart_holdSpindle (spindle : Byte) (time : Word) : KeepsZonesApart (.holdSpindle spindle time) := by
  refine fun s h => ⟨_, rfl, h.request _ fun v hv => ?_⟩
  split
  · exact hv
  · split
    · exact hv
    · split
      · refine .handOn ?_ [_]
        exact hv
      · exact hv

/-! ### Cut reports -/

theorem keepsZonesApart_reportCut (n : SpindleId) (slot : Byte) (index : Word) (issue : Byte) (floors : List Depth) :
    KeepsZonesApart (.reportCut n slot index issue floors) := by
  refine fun s h => ⟨_, rfl, h.request _ fun v hv => ?_⟩
  dsimp only
  split
  · exact hv
  · exact hv.decideReport n _

section
variable {s : State}

theorem ZonesApart.mergeOne (h : ZonesApart s) (n : SpindleId) (m : Merge) (r : Nat) : ZonesApart (s.mergeOne n m r) :=
  h.setCopy m.key.copy (.of_queue rfl ⟨rfl, rfl, rfl⟩)

theorem ZonesApart.settle (h : ZonesApart s) (k : CopySlot) (t : Strip) (o : MergeOutcome) :
    ZonesApart (s.settle k t o) := by
  have hl := h.leave k t true
  cases o with
  | none => exact h
  | removed => exact (hl.removeStrip k t.index).testPass k
  | requeued retry => exact hl.requeueStrip k t.index fun u => ⟨rfl, fun hu => ⟨hu, rfl, rfl, rfl, rfl⟩⟩
  | stuck =>
    refine .testPass ?_ k
    exact hl.modifyCopy k (f := fun c => { c.removeStrip t.index with counters := { c.counters with
      stuck := raiseCounter c.counters.stuck 1 } }) (.of_filter rfl ⟨rfl, rfl, rfl⟩)

theorem ZonesApart.settleMerge (h : ZonesApart s) (m : Merge) : ZonesApart (s.settleMerge m) := by
  unfold State.settleMerge
  split
  · exact h.settle _ _ _
  · exact h

theorem ZonesApart.latchPlanIf (h : ZonesApart s) (c : Prop) [Decidable c] (l : PlanLatch) :
    ZonesApart (if c then s.latchPlan l else s) := by
  split <;> exact h

theorem ZonesApart.mergeEvents (h : ZonesApart s) (k : CopySlot) (m : Merge) : ZonesApart (s.mergeEvents k m) := by
  have h2 := (h.latchPlanIf (1 ≤ m.overcut) .overcut).latchPlanIf (1 ≤ m.spoil) .spoil
  unfold State.mergeEvents
  refine ZonesApart.latchPlanIf ?_ _ _
  split
  · exact h2.modifyRecord k (f := fun c => { c with state := .paused }) rfl ⟨rfl, rfl, rfl⟩
  · exact h2

theorem ZonesApart.completeMerge (h : ZonesApart s) (n : SpindleId) (m : Merge) : ZonesApart (s.completeMerge n m) := by
  have h1 : ZonesApart ((s.modifyCopy m.key.copy fun c =>
      { c with counters := c.counters.countMerge m }).modifySpindle n fun sp => { sp with merge := none }) :=
    h.modifyRecord m.key.copy (f := fun c => { c with counters := c.counters.countMerge m }) rfl ⟨rfl, rfl, rfl⟩
  have h3 := (h1.settleMerge m).mergeEvents m.key.copy m
  unfold State.completeMerge State.answerMerge
  refine ZonesApart.handOn ?_ _
  split <;> exact h3

end

theorem keepsZonesApart_mergeCell (n : SpindleId) : KeepsZonesApart (.mergeCell n) := by
  refine fun s h => ⟨_, rfl, ?_⟩
  split
  · exact h
  · next m _ =>
    split
    · exact h
    · next r _ =>
      have hm := h.mergeOne n m r
      dsimp only
      split
      · split
        · exact hm.completeMerge n _
        · exact hm
      · exact hm

/-- Every command keeps the zones apart: many requests write no copy, whatever branch of their rule answers. -/
theorem keepsZonesApart (i : Instr) : KeepsZonesApart i := by
  cases i with
  | status | clearEvents | readOrder => exact .of_request (fun _ => rfl) fun _ => rfl
  | setAttention | putSamples | viewStaging | defineRelief | bindSpindle | postOrder | postNote | readNote =>
    refine .of_request (fun _ => rfl) fun v => ?_
    repeat' split
    all_goals rfl
  | openTile | sealTile | readRelief =>
    refine .of_request (fun _ => rfl) fun v => ?_
    dsimp only
    repeat' split
    all_goals rfl
  | readFloors | readStrip =>
    refine .of_onCopy (fun _ => rfl) fun k v => ?_
    dsimp only
    repeat' split
    all_goals rfl
  | fetch p crcGood clocked => exact keepsZonesApart_fetch p crcGood clocked
  | statusPoll p phase => exact keepsZonesApart_statusPoll p phase
  | badFrame p flaw => exact keepsZonesApart_badFrame p flaw
  | portReset p => exact keepsZonesApart_portReset p
  | warmReset => exact keepsZonesApart_warmReset
  | powerOn resetHigh => exact keepsZonesApart_powerOn resetHigh
  | resetPin periods => exact keepsZonesApart_resetPin periods
  | resetRelease => exact keepsZonesApart_resetRelease
  | millisecondTick n => exact keepsZonesApart_millisecondTick n
  | leaseExpiry n => exact keepsZonesApart_leaseExpiry n
  | holdCountdownEnd n => exact keepsZonesApart_holdCountdownEnd n
  | rescanPreloadCompletion => exact keepsZonesApart_rescanPreloadCompletion
  | sealCompletion => exact keepsZonesApart_sealCompletion
  | dropTile tx ty => exact keepsZonesApart_dropTile tx ty
  | defineCopy args => exact keepsZonesApart_defineCopy args
  | clearCompletion slot => exact keepsZonesApart_clearCompletion slot
  | setPass slot kind stepDown allowance => exact keepsZonesApart_setPass slot kind stepDown allowance
  | startPass slot => exact keepsZonesApart_startPass slot
  | pauseCopy slot => exact keepsZonesApart_pauseCopy slot
  | resumeCopy slot => exact keepsZonesApart_resumeCopy slot
  | closeCopy slot => exact keepsZonesApart_closeCopy slot
  | unbindSpindle spindle => exact keepsZonesApart_unbindSpindle spindle
  | readCopy slot zero => exact keepsZonesApart_readCopy slot zero
  | loadPlan slot ds => exact keepsZonesApart_loadPlan slot ds
  | clearPlan slot => exact keepsZonesApart_clearPlan slot
  | takeStrip n => exact keepsZonesApart_takeStrip n
  | setPrefetch n threshold => exact keepsZonesApart_setPrefetch n threshold
  | computeCell => exact keepsZonesApart_computeCell
  | drawTargets n count => exact keepsZonesApart_drawTargets n count
  | rewindStrip n => exact keepsZonesApart_rewindStrip n
  | renew n => exact keepsZonesApart_renew n
  | releaseFence slot index action => exact keepsZonesApart_releaseFence slot index action
  | holdSpindle spindle time => exact keepsZonesApart_holdSpindle spindle time
  | reportCut n slot index issue floors => exact keepsZonesApart_reportCut n slot index issue floors
  | mergeCell n => exact keepsZonesApart_mergeCell n

/-- Settles O46: only the issue of a strip adds a zone, and the search has tested it against those of other spindles. -/
theorem zonesStayApart : Obligations.ZonesStayApart := by
  intro s t hs h
  unfold step at h
  split at h
  · cases h
    exact hs
  · next i rest _ =>
    obtain ⟨u, hu, hz⟩ := keepsZonesApart i { s with pending := rest } hs
    obtain rfl : u = t := by simpa using hu.symm.trans h
    exact hz

end Sys2Proof.Machine

namespace Sys2Proof.Machine

/-! ## TAKE STRIP (R88, R92 to R95) -/

/-- No strip is PLANNED: there is nothing to search (R93). -/
theorem Copy.plannedStrips_eq_nil_iff (c : Copy) : c.plannedStrips = [] ↔ ∀ t ∈ c.queue, t.state ≠ .planned := by
  simp [plannedStrips, List.filter_eq_nil_iff]

/-- The wanted tile is offered whatever a port's answer is (R94). -/
theorem State.offerWanted_answer (s : State) (key : TileKey) (p : PortId) (c : AnswerCode) (d : List Byte) :
    (s.offerWanted key).answer p c d = (s.answer p c d).offerWanted key := by
  unfold offerWanted
  rw [answer_relief]
  split
  · rfl
  · exact (s.setRelief _).raise_answer .scan p 3 c d

/-- The hold is set whatever a port's answer is (R95). -/
theorem State.scanHold_answer (s : State) (n : SpindleId) (w : Nat) (p : PortId) (c : AnswerCode) (d : List Byte) :
    (s.scanHold n w).answer p c d = (s.answer p c d).scanHold n w := by
  unfold scanHold
  split
  · rfl
  · exact (s.modifySpindle n _).raise_answer (.spindle n) p 2 c d

theorem holdOriginBytes_eq (o : HoldOrigin) : holdOriginBytes o = [if o = .scan then 1#8 else 0#8] := by
  cases o <;> rfl

theorem State.scanHold_holdRemaining (s : State) (n : SpindleId) (w : Nat) :
    ((s.scanHold n w).spindle n).holdRemaining = max (s.spindle n).holdRemaining w := by
  unfold scanHold
  split
  · next h => rw [h, Nat.max_zero]
  · dsimp only
    rw [setHold, latchSpindle_spindle, modifySpindle_spindle_same]

theorem State.offerWanted_spindle (s : State) (key : TileKey) (n : SpindleId) :
    (s.offerWanted key).spindle n = s.spindle n := by
  unfold offerWanted
  split <;> rfl

theorem State.offerWanted_eq (s : State) (key : TileKey) : s.offerWanted key =
    if s.relief.wanted = some key then s else (s.setRelief { s.relief with wanted := some key }).raise .scan 3 := rfl

/-- WAIT(SCAN_BEHIND) with no hold active (R94, R95): the answer and the wanted tile, then the copy's wait hold, of SCAN
origin. -/
theorem State.waitForScan_of_no_hold {s : State} {n : SpindleId} (h : (s.spindle n).holdRemaining = 0) (k : CopySlot)
    (key : TileKey) :
    let hold := (s.copy k).waitHold
    let v := (s.answer (.spindle n) .wait (waitScanBehind key hold)).offerWanted key
    s.waitForScan n k key = if hold = 0 then v else
      (v.setSpindle n { s.spindle n with holdRemaining := hold, holdOrigin := .scan }).raise (.spindle n) 2 := by
  intro hold v
  have hv : v.spindle n = s.spindle n := State.offerWanted_spindle _ key n
  unfold waitForScan
  dsimp only
  rw [scanHold_holdRemaining, offerWanted_spindle, h, Nat.zero_max, scanHold_answer, offerWanted_answer]
  show v.scanHold n hold = _
  unfold scanHold
  dsimp only
  rw [hv, h, Nat.zero_max, if_pos rfl, setHold, modifySpindle, hv]
  rfl

/-- The answer of a search that finds no strip, by the tile that the first strip to fail on tiles alone waits for
(R93). -/
theorem State.noStrip_eq (s : State) (n : SpindleId) (k : CopySlot) : s.noStrip n k =
    if ∀ t ∈ (s.copy k).queue, t.state ≠ .planned then s.answer (.spindle n) .wait waitQueueEmpty
    else ((s.tileFailure n k).bind (s.missingTile k)).elim (s.answer (.spindle n) .wait waitReserved)
      (s.waitForScan n k) := by
  unfold noStrip
  refine if_congr (s.copy k).plannedStrips_eq_nil_iff rfl ?_
  cases s.tileFailure n k with
  | none => rfl
  | some t => cases h : s.missingTile k t <;> simp [h]

/-- The items of an answer that issues a strip: its key with the next issue number, and where it lies (R92). -/
theorem takenItems_nextKey (k : CopySlot) (t : Strip) : takenItems (t.nextKey k) t =
    u8 k.val ++ u16 t.index ++ [t.issue + 1#8] ++ u16 t.row ++ u16 t.first ++ u16 t.length ++
      [if t.direction = .reverse then 1#8 else 0#8] := by
  rw [takenItems, geometryBytes, directionBytes_eq]
  simp only [← List.append_assoc]
  rfl

/-- Settles O41: each case of R88 answers at once; the search and what follows it by the lemmas above. -/
theorem takeStripAnswers : Obligations.TakeStripAnswers := by
  intro n s p sp
  refine next_request ?_
  simp only [State.take_spindle, State.take_copy]
  cases hb : (s.spindle n).bound with
  | none => exact s.take_answer _ _ _
  | some k =>
    dsimp only
    cases hst : (s.copy k).state with
    | paused => exact s.take_answer _ _ _
    | ready | free | clearing => exact s.take_answer _ _ _
    | cutting =>
      simp only [reduceCtorEq, if_false, ne_eq, not_true_eq_false]
      refine if_congr Iff.rfl (s.take_answer _ _ _) ?_
      by_cases hh : 0 < (s.spindle n).holdRemaining
      · refine (if_pos hh).trans (Eq.trans ?_ (if_pos hh).symm)
        rw [s.take_answer, holdBytes, holdOriginBytes_eq]
      refine (if_neg hh).trans (Eq.trans ?_ (if_neg hh).symm)
      have h0 : ((s.take p).spindle n).holdRemaining = 0 := by
        show (s.spindle n).holdRemaining = 0
        omega
      unfold State.takeFrom
      rw [show (s.take p).search n k = s.search n k from rfl]
      cases s.search n k with
      | some t =>
        dsimp only
        rw [State.take_answer, takenItems_nextKey]
      | none =>
        dsimp only
        rw [State.noStrip_eq]
        refine if_congr Iff.rfl (s.take_answer _ _ _) ?_
        rw [show (s.take p).tileFailure n k = s.tileFailure n k from rfl,
          show (s.take p).missingTile k = s.missingTile k from rfl]
        cases (s.tileFailure n k).bind (s.missingTile k) with
        | none => exact s.take_answer _ _ _
        | some key =>
          rw [Option.elim_some, State.waitForScan_of_no_hold h0, s.take_answer, State.offerWanted_eq, ← hb]
          rfl

end Sys2Proof.Machine

namespace Sys2Proof.Machine

/-! ## What hand-on work leaves alone (R97, R99, R105, R106, R152) -/

/-- What hand-on work keeps of the state, whatever its pieces: everything but dependents counts, the state, holder,
issue number, footprint, lease and merge mark of strips, issued lists, merges, waiting reports, the engine, the answers
of spindle ports and the count of free orders. -/
structure WorkKeeps (s v : State) : Prop where
  staging : v.staging = s.staging
  inReset : v.inReset = s.inReset
  pending : v.pending = s.pending
  frame : v.relief.frame = s.relief.frame
  tiles : v.relief.tiles.map (fun t => { t with dependents := 0 }) =
    s.relief.tiles.map fun t => { t with dependents := 0 }
  copies : ∀ k, { v.copy k with queue := [] } = { s.copy k with queue := [] }
  strips : ∀ k, (v.copy k).queue.map (fun t => (t.index, t.geometry, t.retry)) =
    (s.copy k).queue.map fun t => (t.index, t.geometry, t.retry)
  spindles : ∀ n, { v.spindle n with issued := [], merge := none, waiting := none } =
    { s.spindle n with issued := [], merge := none, waiting := none }
  ports : ∀ p, { v.port p with state := .idle, slot := none, delivered := false } =
    { s.port p with state := .idle, slot := none, delivered := false }
  plan : v.port .plan = s.port .plan
  scan : v.port .scan = s.port .scan

section
variable {s u v : State}

theorem WorkKeeps.trans (h1 : WorkKeeps s u) (h2 : WorkKeeps u v) : WorkKeeps s v where
  staging := h2.staging.trans h1.staging
  inReset := h2.inReset.trans h1.inReset
  pending := h2.pending.trans h1.pending
  frame := h2.frame.trans h1.frame
  tiles := h2.tiles.trans h1.tiles
  copies k := (h2.copies k).trans (h1.copies k)
  strips k := (h2.strips k).trans (h1.strips k)
  spindles n := (h2.spindles n).trans (h1.spindles n)
  ports p := (h2.ports p).trans (h1.ports p)
  plan := h2.plan.trans h1.plan
  scan := h2.scan.trans h1.scan

theorem WorkKeeps.countOrder (s : State) : WorkKeeps s { s with choices := s.choices + 1 } :=
  ⟨rfl, rfl, rfl, rfl, rfl, fun _ => rfl, fun _ => rfl, fun _ => rfl, fun _ => rfl, rfl, rfl⟩

theorem WorkKeeps.refl (s : State) : WorkKeeps s s :=
  ⟨rfl, rfl, rfl, rfl, rfl, fun _ => rfl, fun _ => rfl, fun _ => rfl, fun _ => rfl, rfl, rfl⟩

/-- A spindle changed in its issued list, its merge or its waiting report. -/
theorem WorkKeeps.modifySpindle (s : State) (n : SpindleId) {f : Spindle → Spindle}
    (hf : { f (s.spindle n) with issued := [], merge := none, waiting := none } =
      { s.spindle n with issued := [], merge := none, waiting := none }) : WorkKeeps s (s.modifySpindle n f) := by
  refine ⟨rfl, rfl, rfl, rfl, rfl, fun _ => rfl, fun _ => rfl, fun j => ?_, fun _ => rfl, rfl, rfl⟩
  by_cases hj : j = n
  · rw [hj, State.modifySpindle_spindle_same, hf]
  · rw [State.modifySpindle_spindle_ne _ _ _ _ hj]

/-- A strip changed in its place but for its index, its geometry and its retry count. -/
theorem WorkKeeps.updateStrip (s : State) (key : StripKey) {f : Strip → Strip}
    (hf : ∀ t, ((f t).index, (f t).geometry, (f t).retry) = (t.index, t.geometry, t.retry)) :
    WorkKeeps s (s.updateStrip key f) := by
  refine ⟨rfl, rfl, rfl, rfl, rfl, fun k => ?_, fun k => ?_, fun _ => rfl, fun _ => rfl, rfl, rfl⟩ <;>
    unfold State.updateStrip <;> by_cases hk : k = key.copy
  · rw [hk, State.modifyCopy_copy_same]
    rfl
  · rw [State.modifyCopy_copy_ne _ _ _ _ hk]
  · rw [hk, State.modifyCopy_copy_same, Copy.updateStrip, List.map_map]
    refine List.map_congr_left fun t _ => ?_
    simp only [Function.comp_apply]
    split
    · exact hf t
    · rfl
  · rw [State.modifyCopy_copy_ne _ _ _ _ hk]

/-- An answer on a spindle port. -/
theorem WorkKeeps.answer (s : State) (n : SpindleId) (c : AnswerCode) (d : List Byte) :
    WorkKeeps s (s.answer (.spindle n) c d) := by
  refine ⟨rfl, rfl, rfl, rfl, rfl, fun _ => rfl, fun _ => rfl, fun _ => rfl, fun p => ?_, ?_, ?_⟩
  · unfold State.answer
    by_cases hp : p = .spindle n
    · rw [hp, State.modifyPort_port_same]
    · rw [State.modifyPort_port_ne _ _ _ _ hp]
  · exact State.modifyPort_port_ne _ _ _ _ nofun
  · exact State.modifyPort_port_ne _ _ _ _ nofun

theorem WorkKeeps.setRelief_adjustDependents (s : State) (fp : Footprint) (f : Nat → Nat) :
    WorkKeeps s (s.setRelief (s.relief.adjustDependents fp f)) := by
  refine ⟨rfl, rfl, rfl, rfl, ?_, fun _ => rfl, fun _ => rfl, fun _ => rfl, fun _ => rfl, rfl, rfl⟩
  refine List.ext_getElem? fun i => ?_
  rw [List.getElem?_map, List.getElem?_map]
  show Option.map _ (s.relief.adjustDependents fp f).tiles[i]? = _
  rw [Relief.getElem?_adjustDependents, Option.map_map]
  refine congrArg (Option.map · _) (funext fun t => ?_)
  simp only [Function.comp_apply]
  split <;> rfl

theorem WorkKeeps.setEngine (s : State) (e : Engine) : WorkKeeps s (s.setEngine e) :=
  ⟨rfl, rfl, rfl, rfl, rfl, fun _ => rfl, fun _ => rfl, fun _ => rfl, fun _ => rfl, rfl, rfl⟩

theorem WorkKeeps.issueStrip (s : State) (n : SpindleId) (k : CopySlot) (t : Strip) :
    WorkKeeps s (s.issueStrip n k t) :=
  have hstrip := WorkKeeps.updateStrip s (t.keyIn k) (f := Strip.issuedTo n (s.footprintOf k t) (s.copy k).leaseTime)
    fun _ => rfl
  (hstrip.trans (.setRelief_adjustDependents _ (s.footprintOf k t) (· + 1))).trans
    (.modifySpindle _ n (f := fun sp => { sp with issued := sp.issued ++ [⟨t.nextKey k, .awaiting⟩] }) rfl)

theorem WorkKeeps.grantTest (s : State) : WorkKeeps s s.grantTest := by
  obtain e | ⟨n, h, t, -, -, -, e⟩ := s.grantTest_cases <;> rw [e]
  · exact .refl s
  · exact (WorkKeeps.modifySpindle s n (f := fun sp => sp.setStatus h.key fun _ => .computing) rfl).trans
      (.setEngine _ _)

theorem WorkKeeps.decideReport (s : State) (n : SpindleId) (r : Report) : WorkKeeps s (s.decideReport n r) := by
  unfold State.decideReport
  split
  · exact .answer s n _ _
  · exact .answer s n _ _
  · split
    · exact .refl s
    · exact (WorkKeeps.modifySpindle s n rfl).trans (.updateStrip _ _ fun _ => rfl)
  · exact .modifySpindle s n rfl

theorem WorkKeeps.perform (s : State) (c : Chore) : WorkKeeps s (s.perform c) := by
  cases c with
  | evaluate n =>
    show WorkKeeps s (s.autoPrefetch n)
    obtain ⟨e, -⟩ | ⟨k, t, -, e, -⟩ := s.autoPrefetch_cases n <;> rw [e]
    · exact .refl s
    · exact .issueStrip s n k t
  | grant => exact .grantTest s
  | report n =>
    show WorkKeeps s (s.decideWaiting n)
    unfold State.decideWaiting
    split
    · exact .refl s
    · exact (WorkKeeps.modifySpindle s n rfl).trans (.decideReport _ n _)

theorem WorkKeeps.handOn (s : State) (ts : List Chore) : WorkKeeps s (s.handOn ts) :=
  s.handOn_induct (P := WorkKeeps s) ts (.countOrder s) fun u c _ h => h.trans (.perform u c)

end

/-! ### A spindle that no waiting report concerns -/

/-- The port, the merge and the waiting report of spindle n are as before. -/
structure ReportUntouched (n : SpindleId) (s v : State) : Prop where
  port : v.port (.spindle n) = s.port (.spindle n)
  merge : (v.spindle n).merge = (s.spindle n).merge
  waiting : (v.spindle n).waiting = (s.spindle n).waiting

section
variable {n : SpindleId} {s u v : State}

theorem ReportUntouched.trans (h1 : ReportUntouched n s u) (h2 : ReportUntouched n u v) : ReportUntouched n s v :=
  ⟨h2.port.trans h1.port, h2.merge.trans h1.merge, h2.waiting.trans h1.waiting⟩

theorem ReportUntouched.of_same (hp : v.port (.spindle n) = s.port (.spindle n)) (hs : v.spindle n = s.spindle n) :
    ReportUntouched n s v := ⟨hp, congrArg Spindle.merge hs, congrArg Spindle.waiting hs⟩

/-- Another spindle changed. -/
theorem ReportUntouched.modifySpindle_ne (s : State) {j : SpindleId} (hj : n ≠ j) (f : Spindle → Spindle) :
    ReportUntouched n s (s.modifySpindle j f) := .of_same rfl (State.modifySpindle_spindle_ne _ _ _ _ hj)

/-- A report of another spindle decided. -/
theorem ReportUntouched.decideReport (s : State) {j : SpindleId} (hj : n ≠ j) (r : Report) :
    ReportUntouched n s (s.decideReport j r) := by
  have hport (c : AnswerCode) (d : List Byte) : ReportUntouched n s (s.answer (.spindle j) c d) :=
    .of_same (State.modifyPort_port_ne _ _ _ _ (by simpa using hj)) rfl
  unfold State.decideReport
  split
  · exact hport _ _
  · exact hport _ _
  · split
    · exact .of_same rfl rfl
    · exact .of_same rfl (by simp [hj])
  · exact modifySpindle_ne s hj _

theorem ReportUntouched.grantTest (s : State) : ReportUntouched n s s.grantTest := by
  have h := (s.grantTest_spindle n).1
  exact ⟨s.grantTest_port _, (congrArg Spindle.merge h :), (congrArg Spindle.waiting h :)⟩

theorem ReportUntouched.issueStrip (s : State) (j : SpindleId) (k : CopySlot) (t : Strip) :
    ReportUntouched n s (s.issueStrip j k t) := by
  by_cases hj : n = j
  · subst hj
    have h := s.issueStrip_spindle_same n k t
    exact ⟨rfl, (congrArg Spindle.merge h :), (congrArg Spindle.waiting h :)⟩
  · obtain ⟨-, -, -, -, hspindles, -⟩ := s.issueStrip_keeps j k t
    exact .of_same rfl (hspindles n (by simpa using hj))

/-- Any other piece of work than the decision of the spindle's own waiting report. -/
theorem ReportUntouched.perform (s : State) {c : Chore} (hc : c ≠ .report n) : ReportUntouched n s (s.perform c) := by
  cases c with
  | evaluate j =>
    show ReportUntouched n s (s.autoPrefetch j)
    obtain ⟨e, -⟩ | ⟨k, t, -, e, -⟩ := s.autoPrefetch_cases j <;> rw [e]
    · exact .of_same rfl rfl
    · exact .issueStrip s j k t
  | grant => exact .grantTest s
  | report j =>
    have hj : n ≠ j := fun e => hc (e ▸ rfl)
    show ReportUntouched n s (s.decideWaiting j)
    unfold State.decideWaiting
    split
    · exact .of_same rfl rfl
    · exact (modifySpindle_ne s hj _).trans (.decideReport _ hj _)

theorem ReportUntouched.handOn (s : State) {ts : List Chore} (h : .report n ∉ ts) :
    ReportUntouched n s (s.handOn ts) := by
  refine s.handOn_induct (P := ReportUntouched n s) ts (.of_same rfl rfl) fun u c hc hu => hu.trans (.perform u ?_)
  rintro rfl
  exact hc.elim h nofun

end

/-! ### An evaluation (R97) -/

theorem State.heldIn_eq_true_iff (s : State) (h : Held) (st : StripState) :
    s.heldIn h st = true ↔ ∃ t, s.strip? h.key = some t ∧ t.state = st := by
  unfold heldIn
  cases s.strip? h.key <;> simp

/-- The five conditions of auto-prefetch for spindle n, which holds strip h and is bound to copy k (R97). -/
def State.Evaluates (s : State) (n : SpindleId) (h : Held) (k : CopySlot) : Prop :=
  1 ≤ (s.spindle n).threshold ∧
    ((s.spindle n).issued = [h] ∧ h.status = .complete ∧ ∃ t, s.strip? h.key = some t ∧ t.state = .issued) ∧
    (s.spindle n).queue.length - (s.spindle n).readPos ≤ (s.spindle n).threshold ∧
    (s.spindle n).holdRemaining = 0 ∧ (s.spindle n).bound = some k ∧ (s.copy k).state = .cutting

theorem State.prefetchCopy_eq_some_iff (s : State) (n : SpindleId) (k : CopySlot) :
    s.prefetchCopy n = some k ↔ ∃ h, s.Evaluates n h k := by
  unfold prefetchCopy Evaluates
  constructor
  · intro hk
    dsimp only at hk
    split at hk
    · next h c hi hb =>
      obtain ⟨⟨h1, h2, h3, h4, h5, h6⟩, e⟩ := Option.ite_none_right_eq_some.mp hk
      cases e
      exact ⟨h, h1, ⟨hi, h3, (s.heldIn_eq_true_iff h .issued).mp h2⟩, h4, h5, hb, h6⟩
    · cases hk
  · rintro ⟨h, h1, ⟨hi, h3, h2⟩, h4, h5, hb, h6⟩
    rw [← heldIn_eq_true_iff] at h2
    simp only [hi, hb]
    exact if_pos ⟨h1, h2, h3, h4, h5, h6⟩

theorem State.prefetched_of_copy {s : State} {n : SpindleId} {k : CopySlot} (h : s.prefetchCopy n = some k) :
    s.prefetched n = (s.search n k).map fun t => (k, t) := by
  simp only [prefetched, h]
  cases s.search n k <;> rfl

/-- An evaluation that issues nothing changes nothing and sets off nothing. -/
theorem State.evaluate_of_none {s : State} {n : SpindleId} (h : s.prefetched n = none) :
    s.perform (.evaluate n) = s ∧ s.setsOff (.evaluate n) = [] := by
  simp [perform, autoPrefetch, setsOff, h]

/-- An evaluation that issues a strip sets off a grant (R105). -/
theorem State.evaluate_of_some {s : State} {n : SpindleId} {k : CopySlot} {t : Strip}
    (h : s.prefetched n = some (k, t)) :
    s.perform (.evaluate n) = s.issueStrip n k t ∧ s.setsOff (.evaluate n) = [.grant] := by
  simp [perform, autoPrefetch, setsOff, h]

/-- Settles O48: every order and every number by the lemmas on work worked through, what the work leaves by what each
piece leaves, and each piece by its own rule. -/
theorem handOnKeeps : Obligations.HandOnKeeps := by
  refine ⟨fun s ts => ?_, fun s n => ⟨fun h k t he ht => ?_, fun h k he ht => ?_, fun he => ?_, rfl, rfl, rfl,
    fun hw => ?_, fun r hw => ?_, fun r hm => ?_⟩⟩
  · intro v u
    have hv : WorkKeeps s v := .handOn s ts
    have hframe := hv.frame
    simp only [Relief.frame, Prod.mk.injEq] at hframe
    obtain ⟨hmw, hmh, hsealed, hwanted⟩ := hframe
    exact ⟨s.handOn_done ts, rfl, fun w hw => workThrough_selects hw _ (worth_le ts), hv.staging, hv.inReset,
      hv.pending, ⟨hmw, hmh, hsealed, hwanted, hv.tiles⟩, fun k => ⟨hv.copies k, hv.strips k⟩, hv.spindles, hv.ports,
      hv.plan, hv.scan, fun n hn =>
        have hr := ReportUntouched.handOn s hn
        ⟨hr.port, hr.merge, hr.waiting⟩⟩
  · refine State.evaluate_of_some ?_
    rw [State.prefetched_of_copy ((s.prefetchCopy_eq_some_iff n k).mpr ⟨h, he⟩), ht]
    rfl
  · refine State.evaluate_of_none ?_
    rw [State.prefetched_of_copy ((s.prefetchCopy_eq_some_iff n k).mpr ⟨h, he⟩), ht]
    rfl
  · refine State.evaluate_of_none ?_
    have hnone : s.prefetchCopy n = none := Option.eq_none_iff_forall_ne_some.mpr fun k hk => by
      obtain ⟨h, hh⟩ := (s.prefetchCopy_eq_some_iff n k).mp hk
      exact he h k hh
    simp only [State.prefetched, hnone]
  · show s.decideWaiting n = s
    simp only [State.decideWaiting, hw]
  · show s.decideWaiting n = _
    simp only [State.decideWaiting, hw]
    rfl
  · refine next_request ?_
    have hmerge : ((s.take (.spindle n)).spindle n).merge = none := hm
    simp only [hmerge]
    rw [State.take_eq_working]

end Sys2Proof.Machine

namespace Sys2Proof.Machine

/-! ## The grant (R104, R105, R107) -/

/-- How far a spindle comes after the grant pointer in the order of numbers (R105). -/
def grantRank (pointer n : SpindleId) : Nat := (n - pointer - 1 : Fin 6).val

theorem mem_afterPointer (pointer n : SpindleId) : n ∈ afterPointer pointer := by decide +revert

theorem afterPointer_sorted (pointer : SpindleId) :
    (afterPointer pointer).Pairwise fun a b => grantRank pointer a < grantRank pointer b := by decide +revert

theorem State.candidate_eq_true_iff (s : State) (n : SpindleId) :
    s.candidate n = true ↔ ∃ h ∈ (s.spindle n).issued, h.status = .awaiting := by
  simp [candidate, Spindle.oldestAwaiting]

theorem Spindle.unread_eq_zero_iff (sp : Spindle) : sp.unread = 0 ↔ sp.queue.length ≤ sp.readPos :=
  Nat.sub_eq_zero_iff_le

/-- The candidates of the grant in the order after the pointer. -/
def State.grantOrder (s : State) : List SpindleId := (afterPointer s.engine.pointer).filter s.candidate

theorem State.mem_grantOrder (s : State) (n : SpindleId) : n ∈ s.grantOrder ↔ s.candidate n = true := by
  simp [grantOrder, mem_afterPointer]

theorem State.grantOrder_sorted (s : State) :
    s.grantOrder.Pairwise fun a b => grantRank s.engine.pointer a < grantRank s.engine.pointer b :=
  (afterPointer_sorted _).filter _

theorem State.grantee_eq (s : State) :
    s.grantee = (s.grantOrder.find? fun n => decide ((s.spindle n).unread = 0)).or s.grantOrder.head? := by
  simp only [grantee, grantOrder]
  cases List.find? _ (List.filter s.candidate _) <;> rfl

/-- The grant has a spindle to go to exactly where there is a candidate. -/
theorem State.grantee_eq_none_iff (s : State) : s.grantee = none ↔ ∀ n, s.candidate n = false := by
  have hempty : s.grantOrder = [] ↔ ∀ n, s.candidate n = false := by
    simp [List.eq_nil_iff_forall_not_mem, mem_grantOrder]
  rw [grantee_eq, ← hempty, Option.or_eq_none_iff, List.head?_eq_none_iff]
  exact ⟨And.right, fun h => ⟨by rw [h]; rfl, h⟩⟩

/-- No candidate comes before the grantee: not a STARVING one in its class, nor any one where the grantee is not
STARVING (R105). -/
theorem State.grantee_some {s : State} {j : SpindleId} (h : s.grantee = some j) :
    s.candidate j = true ∧ ∀ n, s.candidate n = true →
      ((s.spindle n).unread = 0 →
        (s.spindle j).unread = 0 ∧ grantRank s.engine.pointer j ≤ grantRank s.engine.pointer n) ∧
      ((s.spindle j).unread = 0 ∨ grantRank s.engine.pointer j ≤ grantRank s.engine.pointer n) := by
  simp only [← mem_grantOrder]
  rw [grantee_eq, Option.or_eq_some_iff] at h
  obtain hj | ⟨hnone, hj⟩ := h
  · have hstarving : (s.spindle j).unread = 0 := by simpa using List.find?_some hj
    refine ⟨List.mem_of_find?_eq_some hj, fun n hn => ⟨fun hs => ⟨hstarving, ?_⟩, .inl hstarving⟩⟩
    by_contra hlt
    have hbefore := find?_some_of_pairwise s.grantOrder_sorted (by intro a b; omega) hj hn (Nat.lt_of_not_le hlt)
    exact of_decide_eq_false hbefore hs
  · obtain ⟨rest, hl⟩ := List.head?_eq_some_iff.mp hj
    have hsorted := s.grantOrder_sorted
    rw [hl, List.pairwise_cons] at hsorted
    refine ⟨List.mem_of_head? hj, fun n hn => ⟨fun hs => ?_, .inr ?_⟩⟩
    · exact absurd (decide_eq_true hs) (List.find?_eq_none.mp hnone n hn)
    · obtain rfl | hrest := List.mem_cons.mp (hl ▸ hn)
      · exact le_rfl
      · exact (hsorted.1 n hrest).le

theorem State.grantTest_of_busy {s : State} (h : s.engine.inFlight ≠ none) : s.grantTest = s := by
  obtain ⟨c, hc⟩ := Option.ne_none_iff_exists'.mp h
  simp only [grantTest, hc]

theorem State.grantTest_of_no_candidate {s : State} (h : ∀ n, s.candidate n = false) : s.grantTest = s := by
  simp only [grantTest, s.grantee_eq_none_iff.mpr h]
  split <;> rfl

theorem State.grantTest_of_grantee {s : State} {j : SpindleId} {h : Held} {t : Strip}
    (hfree : s.engine.inFlight = none) (hj : s.grantee = some j) (hh : (s.spindle j).oldestAwaiting = some h)
    (ht : s.strip? h.key = some t) : s.grantTest = s.startComputation j h t := by
  simp only [grantTest, hfree, hj, hh, ht]

/-- The first column in delivery order (R107). -/
theorem Geometry.column_zero (g : Geometry) :
    g.column 0 = if g.direction = .forward then g.first else g.first + g.length - 1 := by
  unfold column
  cases g.direction <;> simp

/-- Settles O47: the grantee is the least of its class in the order after the pointer, and the computation that starts
is that of its oldest AWAITING strip. -/
theorem grantChoice : Obligations.GrantChoice := by
  refine ⟨fun s => State.grantTest_of_busy, fun s hno => ?_, fun s n hfree hn hnamed => ?_⟩
  · refine State.grantTest_of_no_candidate fun n => Bool.eq_false_iff.mpr ?_
    rw [ne_eq, State.candidate_eq_true_iff]
    exact hno n
  · replace hn : s.candidate n = true := (s.candidate_eq_true_iff n).mpr hn
    obtain ⟨j, hj⟩ : ∃ j, s.grantee = some j := by
      refine Option.ne_none_iff_exists'.mp fun h => ?_
      rw [s.grantee_eq_none_iff.mp h n] at hn
      cases hn
    obtain ⟨hcand, hfirst⟩ := State.grantee_some hj
    obtain ⟨hstarving, hany⟩ := hfirst n hn
    obtain ⟨h, hh⟩ := Option.isSome_iff_exists.mp hcand
    obtain ⟨hstatus, before, after, hissued, hbefore⟩ := List.find?_eq_some_iff_append.mp hh
    have hmem : h ∈ (s.spindle j).issued := List.mem_of_find?_eq_some hh
    obtain ⟨t, ht⟩ := Option.ne_none_iff_exists'.mp (hnamed j h hmem)
    simp only [Spindle.unread_eq_zero_iff] at hstarving hany
    refine ⟨j, h, t, before, after, hissued, of_decide_eq_true hstatus, fun g hg => by simpa using hbefore g hg, ht,
      hstarving, fun _ => hany, ?_⟩
    rw [State.grantTest_of_grantee hfree hj hh ht, State.startComputation, Geometry.column_zero]
    rfl

end Sys2Proof.Machine

namespace Sys2Proof.Machine

/-! ## DRAW TARGETS (R112, R123) -/

theorem State.entryFenced_eq_true_iff (s : State) (e : Entry) :
    s.entryFenced e = true ↔ ∃ t, s.strip? e.key = some t ∧ t.state = .fenced := by
  unfold entryFenced
  cases s.strip? e.key <;> simp

/-- Changing the strips that held strips name touches the copies alone. -/
theorem State.mapNamed_keeps (s : State) (hs : List Held) (f : Copy → Strip → Strip) :
    Keeps s (s.mapNamed hs f) { copies := [0, 1, 2, 3, 4, 5] } :=
  ⟨fun _ => rfl, fun _ => rfl, fun _ => rfl, fun k hk => absurd (by decide +revert) hk, fun _ _ => rfl, fun _ _ => rfl,
    rfl, rfl, rfl⟩

/-- What a bounded run of passing members takes off the front of a list, and why it stops there. -/
theorem takeWhile_take_stops {α : Type} (p : α → Bool) (c : Nat) (l : List α) :
    ∃ rest, l = (l.take c).takeWhile p ++ rest ∧
      (((l.take c).takeWhile p).length = c ∨ rest = [] ∨ ∃ x, rest.head? = some x ∧ p x = false) := by
  refine ⟨(l.take c).dropWhile p ++ l.drop c, ?_, ?_⟩
  · rw [← List.append_assoc, List.takeWhile_append_dropWhile, List.take_append_drop]
  · have hstop := List.head?_dropWhile_not p (l.take c)
    have hsplit : (l.take c).takeWhile p ++ (l.take c).dropWhile p = l.take c := List.takeWhile_append_dropWhile
    cases hd : (l.take c).dropWhile p with
    | cons x xs =>
      rw [hd] at hstop
      exact .inr (.inr ⟨x, rfl, by simpa using hstop⟩)
    | nil =>
      rw [hd, List.append_nil] at hsplit
      rw [hsplit, List.length_take, List.nil_append, List.drop_eq_nil_iff]
      omega

/-- Where a draw stops: at the count, at the end of the queue or before an entry of a FENCED strip (R112). -/
theorem State.drawn_stops (s : State) (n : SpindleId) (c : Nat) : ∃ rest,
    (s.spindle n).queue.drop (s.spindle n).readPos = s.drawn n c ++ rest ∧
      ((s.drawn n c).length = c ∨ rest = [] ∨ ∃ e, rest.head? = some e ∧ s.entryFenced e = true) := by
  simpa only [drawn, Bool.not_eq_false'] using
    takeWhile_take_stops (fun e => !s.entryFenced e) c ((s.spindle n).queue.drop (s.spindle n).readPos)

theorem State.drawn_length_le (s : State) (n : SpindleId) (c : Nat) : (s.drawn n c).length ≤ c :=
  (List.takeWhile_sublist _).length_le.trans (List.length_take_le _ _)

theorem State.entryFenced_of_mem_drawn {s : State} {n : SpindleId} {c : Nat} {e : Entry} (h : e ∈ s.drawn n c) :
    s.entryFenced e = false := by
  simpa using List.mem_takeWhile_imp h

/-- Settles O50: the checks in order; where nothing is returned the read position stays, and where something is, the
leases restart and auto-prefetch is evaluated. -/
theorem drawTargetsEffects : Obligations.DrawTargetsEffects := by
  refine ⟨fun n count s => ?_, State.entryFenced_eq_true_iff,
    fun s hs f => ⟨s.mapNamed_keeps hs f, s.mapNamed_copy hs f⟩, fun n c s => ?_⟩
  · intro p sp es left drawnFrom entry
    have hes : (s.take (.spindle n)).drawn n count.toNat = es := rfl
    refine next_request ?_
    simp only [hes]
    refine if_congr Iff.rfl (s.take_answer _ _ _) ?_
    by_cases hnone : es = []
    · have hleft : left = sp.unread := by simp [left, hnone, Spindle.unread]
      have hcode : (es = [] ∧ 0 < ((s.take p).spindle n).unread) ↔ sp.readPos < sp.queue.length := by
        simp [hnone, sp, Spindle.unread]
      rw [if_pos hnone, if_pos hnone, hleft, if_congr hcode rfl rfl, ← State.take_answer]
      simp only [hnone, List.length_nil, Nat.add_zero]
      rw [State.modifySpindle_self]
      rfl
    · rw [if_neg hnone, if_neg hnone, if_neg (fun h => hnone h.1)]
      refine congrArg (State.handOn · [.evaluate n]) ?_
      simp only [State.drawnStrips, State.answer_spindle, State.modifySpindle_spindle_same]
      rw [← State.take_answer]
      rfl
  · obtain ⟨rest, hsplit, hstops⟩ := s.drawn_stops n c
    exact ⟨rest, hsplit, s.drawn_length_le n c, fun e he => State.entryFenced_of_mem_drawn he, hstops⟩

/-! ## REWIND STRIP, RENEW and SET PREFETCH (R100, R114, R115, R123) -/

/-- REWIND STRIP: refused without a held strip, LATE for a FENCED one, and otherwise back to the head of the queue. -/
theorem exec_rewindStrip (n : SpindleId) (s : State) :
    let p := PortId.spindle n
    let sp := s.spindle n
    exec (.rewindStrip n) s = .next (s.ifTaken p (
      match sp.issued with
      | [] => s.replied p .notHeld []
      | h :: _ =>
        if s.heldIn h .issued = true then
          ((s.replied p .ok (keyBytes h.key ++ u16 sp.queue.length)).modifySpindle n fun sp =>
            { sp with readPos := 0 }).restartLeases [h]
        else s.replied p .late (keyBytes h.key ++ u16 (sp.queue.length - sp.readPos)))) := by
  intro p sp
  refine next_request ?_
  rw [State.take_spindle]
  cases (s.spindle n).issued with
  | nil => exact s.take_answer _ _ _
  | cons h rest =>
    refine if_congr Iff.rfl ?_ (s.take_answer _ _ _)
    rw [← State.take_answer]
    simp only [State.restartLeases_spindle, State.modifySpindle_spindle_same]
    rfl

theorem exec_renew (n : SpindleId) (s : State) :
    exec (.renew n) s = .next (s.ifTaken (.spindle n)
      ((s.replied (.spindle n) .ok (u8 (s.issuedStrips n).length)).restartLeases (s.issuedStrips n))) := by
  refine next_request ?_
  rw [← State.take_answer]
  rfl

/-- SET PREFETCH: CLAMPED exactly where the threshold asked for is above 255. -/
theorem exec_setPrefetch (n : SpindleId) (x : Word) (s : State) :
    let p := PortId.spindle n
    exec (.setPrefetch n x) s = .next (s.ifTaken p
      (((s.replied p (if x.toNat ≤ 255 then .ok else .clamped) (u16 (min 255 x.toNat))).setSpindle n
        { s.spindle n with threshold := min 255 x.toNat }).handOn [.evaluate n])) := by
  intro p
  have hclamped : ¬ min 255 x.toNat ≠ x.toNat ↔ x.toNat ≤ 255 := by omega
  refine next_request ?_
  dsimp only
  rw [← ite_not, if_congr hclamped rfl rfl, ← State.take_answer]
  rfl

/-- Settles O51: one rule for each request. -/
theorem leaseAndThresholdRequests : Obligations.LeaseAndThresholdRequests :=
  fun n x s => ⟨exec_rewindStrip n s, exec_renew n s, exec_setPrefetch n x s⟩

end Sys2Proof.Machine

namespace Sys2Proof.Machine

/-! ## The tick of a spindle (R121, R125, R127, R135) -/

theorem State.expiring_eq_true_iff (s : State) (h : Held) : s.expiring h = true ↔
    ∃ t l, s.strip? h.key = some t ∧ t.state = .issued ∧ t.lease = some l ∧ l.running = true ∧ l.remaining ≤ 1 := by
  unfold expiring
  cases s.strip? h.key with
  | none => simp
  | some t => cases ht : t.lease <;> simp [ht, and_assoc]

theorem State.mem_issuedStrips_iff (s : State) (n : SpindleId) (h : Held) : h ∈ s.issuedStrips n ↔
    h ∈ (s.spindle n).issued ∧ ∃ t, s.strip? h.key = some t ∧ t.state = .issued := by
  rw [issuedStrips, List.mem_filter, heldIn_eq_true_iff]

theorem names_eq_true_iff (hs : List Held) (k : CopySlot) (i : Nat) :
    names hs k i = true ↔ ∃ h ∈ hs, h.key.copy = k ∧ h.key.index = i := by
  simp [names]

/-- A strip is named by those that pass a test or by those that fail it. -/
theorem names_eq_filter_or (p : Held → Bool) (hs : List Held) (k : CopySlot) (i : Nat) :
    names hs k i = (names (hs.filter p) k i || names (hs.filter fun h => !p h) k i) := by
  induction hs with
  | nil => rfl
  | cons h hs ih =>
    rw [names, List.any_cons, ← names, ih]
    cases hp : p h <;> simp [hp, names, Bool.or_assoc, Bool.or_left_comm]

/-- The leases of a tick lowered and its expired strips fenced, before FENCED is latched (R121, R125). -/
def State.leasesTicked (s : State) (n : SpindleId) : State :=
  (s.advanceLeases n).fenceAll n ((s.issuedStrips n).filter s.expiring)

/-- FENCED is latched on both ports, where a lease has expired (R127). -/
theorem State.leaseTick_eq (s : State) (n : SpindleId) : s.leaseTick n =
    if (s.issuedStrips n).filter s.expiring = [] then s.leasesTicked n
    else ((s.leasesTicked n).raise (.spindle n) 4).raise .plan 3 := by
  unfold leaseTick expire leasesTicked
  split
  · next h => rw [h, fenceAll_nil]
  · rfl

/-- A strip whose lease expires is fenced, and another ISSUED strip's running lease is lowered. -/
theorem State.leasesTicked_copy (s : State) (n : SpindleId) (k : CopySlot) :
    (s.leasesTicked n).copy k = { s.copy k with
      queue := (s.copy k).queue.map fun t =>
        if names ((s.issuedStrips n).filter s.expiring) k t.index then { t with state := .fenced, lease := none }
        else if names (s.issuedStrips n) k t.index then t.tickLease
        else t } := by
  rw [leasesTicked, fenceAll_copy, advanceLeases, mapNamed_copy]
  simp only [List.map_map]
  congr 1
  refine List.map_congr_left fun t _ => ?_
  rw [Function.comp_apply, names_eq_filter_or s.expiring (s.issuedStrips n)]
  by_cases hlive : names ((s.issuedStrips n).filter fun h => !s.expiring h) k t.index = true
  · rw [if_pos hlive, hlive, Bool.or_true, if_pos rfl]
    rfl
  · rw [if_neg hlive]
    by_cases hdying : names ((s.issuedStrips n).filter s.expiring) k t.index = true <;> simp [hdying, hlive]

/-- Of the spindles a tick of the leases touches its own, in the statuses of the strips it fences (R104). -/
theorem State.leasesTicked_spindle (s : State) (n : SpindleId) :
    (s.leasesTicked n).spindle n = { s.spindle n with
      issued := (s.spindle n).issued.map fun h =>
        if ((s.issuedStrips n).filter s.expiring).any (fun g => decide (g.key = h.key)) ∧ h.status = .awaiting then
          { h with status := .void }
        else h } :=
  (s.advanceLeases n).fenceAll_spindle n _

theorem State.leasesTicked_spindle_ne (s : State) {n j : SpindleId} (h : j ≠ n) :
    (s.leasesTicked n).spindle j = s.spindle j :=
  (s.advanceLeases n).fenceAll_spindle_ne _ h

/-- A tick lowers a hold by 1 ms, and ends it at 0 (R121, R135). -/
theorem State.holdTick_eq {s : State} {n : SpindleId} (h : 0 < (s.spindle n).holdRemaining) : s.holdTick n =
    if (s.spindle n).holdRemaining = 1 then (s.endHold n).handOn [.evaluate n]
    else s.setSpindle n { s.spindle n with holdRemaining := (s.spindle n).holdRemaining - 1 } :=
  if_congr (by omega) rfl rfl

/-- LEASE_EXPIRY is a tick of the leases at which one expires (log 3). -/
theorem exec_leaseExpiry (n : SpindleId) (s : State) : exec (.leaseExpiry n) s = .next
    (if (s.spindle n).holdRemaining = 0 ∧ (s.issuedStrips n).filter s.expiring ≠ [] then s.leaseTick n else s) := by
  refine congrArg Host.Outcome.next (if_congr (and_congr_right fun _ => ?_) rfl rfl)
  simp [List.filter_eq_nil_iff]

/-- Settles O18: with a hold active the tick of the hold, and with none the tick of the leases. -/
theorem tickEffects : Obligations.TickEffects := by
  intro n s sp ended dying
  refine ⟨s.expiring_eq_true_iff, s.mem_issuedStrips_iff n, names_eq_true_iff, fun hold => ?_, ?_, fun hold => ?_,
    fun hold => ⟨s.leasesTicked n, ?_, ?_, rfl, rfl, rfl, rfl, rfl, rfl, rfl, s.leasesTicked_copy n,
      fun j => s.leasesTicked_spindle_ne, s.leasesTicked_spindle n⟩⟩
  · exact congrArg Host.Outcome.next ((if_pos hold).trans (State.holdTick_eq hold))
  · refine congrArg Host.Outcome.next (if_ctx_congr Iff.rfl (fun h => ?_) fun _ => rfl)
    exact (State.holdTick_eq (h ▸ Nat.one_pos)).trans (if_pos h)
  · rw [exec_leaseExpiry, if_neg fun h => hold.ne' h.1]
  · refine congrArg Host.Outcome.next (Eq.trans (if_neg ?_) (s.leaseTick_eq n))
    exact hold.not_gt
  · rw [exec_leaseExpiry, State.leaseTick_eq]
    by_cases hnone : dying = []
    · rw [if_neg fun h => h.2 hnone, if_pos hnone]
    · rw [if_pos ⟨hold, hnone⟩, if_neg hnone, if_neg hnone]

/-! ## HOLD SPINDLE (R133 to R135) -/

theorem u16_toNat (w : Word) : u16 w.toNat = word2 w := by
  have hhigh : BitVec.ofNat 8 (w.toNat / 256) = w.extractLsb' 8 8 := by
    apply BitVec.eq_of_toNat_eq
    simp [Nat.shiftRight_eq_div_pow]
  have hlow : BitVec.ofNat 8 w.toNat = w.extractLsb' 0 8 := by
    apply BitVec.eq_of_toNat_eq
    simp
  rw [u16, word2, hhigh, hlow]

/-- A hold is set whatever a port's answer is (R134). -/
theorem State.setHold_answer (s : State) (n : SpindleId) (time : Nat) (o : HoldOrigin) (p : PortId) (c : AnswerCode)
    (d : List Byte) : (s.setHold n time o).answer p c d = (s.answer p c d).setHold n time o :=
  (s.modifySpindle n _).raise_answer (.spindle n) p 2 c d

/-- A hold ends whatever a port's answer is (R135). -/
theorem State.endHold_answer (s : State) (n : SpindleId) (p : PortId) (c : AnswerCode) (d : List Byte) :
    (s.endHold n).answer p c d = (s.answer p c d).endHold n :=
  (s.modifySpindle n _).raise_answer (.spindle n) p 3 c d

/-- The hold items of a spindle whose hold a PLAN request has just set (R134). -/
theorem holdBytes_setHold (s : State) (n : SpindleId) (time : Word) :
    holdBytes ((s.setHold n time.toNat .plan).spindle n) = word2 time ++ [0#8] := by
  rw [State.setHold, State.latchSpindle_spindle, State.modifySpindle_spindle_same, holdBytes, u16_toNat]
  rfl

/-- The hold items of a spindle without a hold (R133). -/
theorem holdBytes_of_no_hold {sp : Spindle} (h : sp.holdRemaining = 0) :
    holdBytes sp = [0#8, 0#8] ++ [if sp.holdOrigin = .scan then 1#8 else 0#8] := by
  rw [holdBytes, holdOriginBytes_eq, h]
  rfl

/-- The hold items of a spindle whose hold has just ended (R135). -/
theorem holdBytes_endHold (s : State) (n : SpindleId) : holdBytes ((s.endHold n).spindle n) = [0#8, 0#8, 0#8] := by
  rw [State.endHold_spindle, if_pos rfl]
  exact holdBytes_of_no_hold rfl

/-- Settles O53: a hold set, an active hold ended, or no hold to end. -/
theorem holdSpindleEffects : Obligations.HoldSpindleEffects := by
  intro spindle time s
  have htime : 0 < time.toNat ↔ time ≠ 0#16 := by
    rw [Nat.pos_iff_ne_zero, ne_eq, ne_eq, ← BitVec.toNat_inj]
    rfl
  refine next_request ?_
  cases spindleOf spindle with
  | none => exact s.take_answer _ _ _
  | some n =>
    refine if_congr htime ?_ (if_ctx_congr Iff.rfl (fun _ => ?_) fun hold => ?_)
    · dsimp only
      rw [holdBytes_setHold, State.setHold_answer, State.take_answer]
      rfl
    · dsimp only
      rw [holdBytes_endHold, State.endHold_answer, State.take_answer]
      rfl
    · have hnone : (s.spindle n).holdRemaining = 0 := Nat.eq_zero_of_not_pos hold
      rw [State.take_answer, State.take_spindle, holdBytes_of_no_hold hnone]

/-! ## RELEASE FENCE (R129 to R131) -/

/-! ### A release and the port that asked for it -/

theorem State.computes_eq_any (s : State) (key : StripKey) :
    s.computes key = s.engine.inFlight.any fun c => decide (c.key = key) := by
  unfold computes
  cases s.engine.inFlight <;> rfl

section
variable (s : State) (p : PortId) (x : Port) (k : CopySlot) (t : Strip)

/-- A strip's leaving looks at no port. -/
theorem State.leave_setPort (record : Bool) : (s.setPort p x).leave k t record = (s.leave k t record).setPort p x := by
  have htiles : (s.setPort p x).releaseTiles t = (s.releaseTiles t).setPort p x := by
    unfold releaseTiles
    cases t.footprint <;> rfl
  have hholder (v : State) : (v.setPort p x).releaseHolder k t record = (v.releaseHolder k t record).setPort p x := by
    unfold releaseHolder
    cases t.holder <;> rfl
  have habandon (v : State) (key : StripKey) : (v.setPort p x).abandon key = (v.abandon key).setPort p x := by
    unfold abandon
    rw [apply_ite (State.setPort · p x)]
    rfl
  rw [leave, htiles, hholder, habandon]
  rfl

/-- A grant looks at no port. -/
theorem State.grantTest_setPort : (s.setPort p x).grantTest = s.grantTest.setPort p x := by
  have hgrantee : (s.setPort p x).grantee = s.grantee := rfl
  unfold grantTest
  rw [hgrantee, setPort_engine]
  cases s.engine.inFlight with
  | some c => rfl
  | none =>
    cases s.grantee with
    | none => rfl
    | some n =>
      simp only [setPort_spindle]
      cases (s.spindle n).oldestAwaiting with
      | none => rfl
      | some h =>
        have hstrip : (s.setPort p x).strip? h.key = s.strip? h.key := rfl
        simp only [hstrip]
        cases s.strip? h.key <;> rfl

theorem State.leaveAndGrant_setPort :
    (s.setPort p x).leaveAndGrant k t = (s.leaveAndGrant k t).setPort p x := by
  have hcomputes (key : StripKey) : (s.setPort p x).computes key = s.computes key := rfl
  unfold leaveAndGrant
  dsimp only
  rw [leave_setPort, grantTest_setPort, hcomputes, apply_ite (State.setPort · p x)]

end

/-- A request taken changes its port alone. -/
theorem State.take_eq_setPort (s : State) (p : PortId) : s.take p = s.setPort p ((s.take p).port p) := by
  rw [take_eq_working, working, modifyPort_port_same]
  rfl

/-- The answer to a request that has done its work is that of a request answered at once. -/
theorem State.answer_of_port_eq {s w : State} {p : PortId} (h : w.port p = (s.take p).port p) (c : AnswerCode)
    (d : List Byte) : w.answer p c d = w.setPort p ((s.replied p c d).port p) := by
  rw [← take_answer, answer, answer, modifyPort_port_same, modifyPort, h]

/-! ### A release and the bindings -/

theorem State.boundTo_congr {s v : State} (h : ∀ n, (v.spindle n).bound = (s.spindle n).bound) (k : CopySlot) :
    v.boundTo k = s.boundTo k := by
  simp only [boundTo, h]

theorem State.grantTest_bound (s : State) (n : SpindleId) : (s.grantTest.spindle n).bound = (s.spindle n).bound :=
  (congrArg Spindle.bound (s.grantTest_spindle n).1 :)

theorem State.leave_bound (s : State) (k : CopySlot) (t : Strip) (record : Bool) (n : SpindleId) :
    ((s.leave k t record).spindle n).bound = (s.spindle n).bound := by
  rw [leave_spindle_ite]
  split
  · cases record <;> rfl
  · rfl

theorem State.leaveAndGrant_bound (s : State) (k : CopySlot) (t : Strip) (n : SpindleId) :
    ((s.leaveAndGrant k t).spindle n).bound = (s.spindle n).bound := by
  obtain ⟨-, e⟩ | ⟨-, e⟩ := s.leaveAndGrant_cases k t <;> rw [e]
  · rw [grantTest_bound, leave_bound]
  · exact s.leave_bound k t true n

theorem State.testPass_spindle (s : State) (k : CopySlot) (n : SpindleId) : (s.testPass k).spindle n = s.spindle n := by
  unfold testPass
  dsimp only
  split <;> rfl

/-! ### The effects of a release -/

/-- The state of a release before its answer (R130, R131). -/
def State.releaseDone (s : State) (k : CopySlot) (t : Strip) : FenceAction → State
  | .requeue => s.requeueFenced k t
  | .discard => s.discardFenced k t

theorem State.releaseDone_bound (s : State) (k : CopySlot) (t : Strip) (act : FenceAction) (n : SpindleId) :
    ((s.releaseDone k t act).spindle n).bound = (s.spindle n).bound := by
  refine Eq.trans (congrArg Spindle.bound ?_) (s.leaveAndGrant_bound k t n)
  cases act with
  | requeue => rfl
  | discard => exact testPass_spindle _ k n

/-- The answer follows the effects, and the evaluations for the copy's spindles follow last. -/
theorem State.releaseStrip_eq (s : State) (k : CopySlot) (t : Strip) (act : FenceAction) :
    s.releaseStrip k t act = ((s.releaseDone k t act).answer .plan .ok
      (releaseItems (t.keyIn k) act ((s.releaseDone k t act).copy k).queue.length)).handOn
        ((s.boundTo k).map Chore.evaluate) := by
  rw [← boundTo_congr (s.releaseDone_bound k t act) k]
  cases act <;> rfl

/-- A strip's leaving with the grant that may follow it, the abandoned computation spelled out (R105, R109). -/
theorem State.leaveAndGrant_eq (s : State) (k : CopySlot) (t : Strip) : s.leaveAndGrant k t =
    if s.engine.inFlight.any (fun x => decide (x.key = t.keyIn k)) then (s.leave k t true).grantTest
    else s.leave k t true := by
  rw [leaveAndGrant, computes_eq_any]

/-- The copy of a strip that has left for a request. -/
theorem State.take_leaveAndGrant_copy (s : State) (k : CopySlot) (t : Strip) :
    ((s.take .plan).leaveAndGrant k t).copy k = (s.leave k t true).copy k := by
  rw [take_eq_setPort, leaveAndGrant_setPort]
  exact congrArg (Six.get · k) (s.leaveAndGrant_copies k t)

/-- A release's answer, placed on the port that the leaving has not touched. -/
theorem State.take_leaveAndGrant_answer (s : State) (k : CopySlot) (t : Strip) (x : Copy) (c : AnswerCode)
    (d : List Byte) : (((s.take .plan).leaveAndGrant k t).setCopy k x).answer .plan c d =
      ((s.leaveAndGrant k t).setPort .plan ((s.replied .plan c d).port .plan)).setCopy k x := by
  have hport : (((s.take .plan).leaveAndGrant k t).setCopy k x).port .plan = (s.take .plan).port .plan :=
    congrArg (Ports.get · .plan) ((s.take .plan).leaveAndGrant_ports k t)
  rw [answer_of_port_eq hport, take_eq_setPort, leaveAndGrant_setPort]
  show (((s.leaveAndGrant k t).setCopy k x).setPort .plan _).setPort .plan _ = _
  rw [setPort_setPort]
  rfl

/-- REQUEUE for a request: the strip at the tail with its next issue number (R130). -/
theorem State.take_requeueFenced (s : State) (k : CopySlot) (t : Strip) : (s.take .plan).requeueFenced k t =
    ((s.take .plan).leaveAndGrant k t).setCopy k
      (((s.leave k t true).copy k).requeueStrip t.index fun u => { u with issue := u.issue + 1#8 }) := by
  rw [requeueFenced, modifyCopy, take_leaveAndGrant_copy]

/-- DISCARD for a request: the strip removed, and the pass complete where it was the last of a closed plan (R81,
R131). -/
theorem State.take_discardFenced (s : State) (k : CopySlot) (t : Strip) :
    let y := (s.take .plan).leaveAndGrant k t
    let c := ((s.leave k t true).copy k).removeStrip t.index
    (s.take .plan).discardFenced k t = if c.state = .cutting ∧ c.planClosed = true ∧ c.queue = [] then
        (y.setCopy k { c with state := .ready, planClosed := false }).raise .plan 2
      else y.setCopy k c := by
  intro y c
  rw [discardFenced, modifyCopy, take_leaveAndGrant_copy, testPass, setCopy_copy_same, completePass_eq,
    setCopy_copy_same, setCopy_setCopy]

/-- A pass completion test leaves the strips of the copy. -/
theorem State.testPass_queue (s : State) (k : CopySlot) : ((s.testPass k).copy k).queue = (s.copy k).queue := by
  unfold testPass
  dsimp only
  split
  · rw [completePass, latchPlan_copy, modifyCopy_copy_same]
  · rfl

/-- REQUEUE for a request: the leaving, the strip at the tail, the answer, then the evaluations (R129, R130). -/
theorem State.take_releaseStrip_requeue (s : State) (k : CopySlot) (t : Strip) :
    let c := (s.leave k t true).copy k
    let others := c.queue.filter fun u => decide (u.index ≠ t.index)
    let own := c.queue.filter fun u => decide (u.index = t.index)
    (s.take .plan).releaseStrip k t .requeue =
      (((s.leaveAndGrant k t).setCopy k
        { c with queue := others ++ own.map fun u => { u with issue := u.issue + 1#8 } }).setPort .plan
          ((s.replied .plan .ok (keyBytes (t.keyIn k) ++ [0#8] ++ u16 (others.length + own.length)
            ++ [t.issue + 1#8])).port .plan)).handOn ((s.boundTo k).map Chore.evaluate) := by
  intro c others own
  have hlive : (c.requeueStrip t.index fun u => { u with issue := u.issue + 1#8 }).queue.length =
      others.length + own.length := by
    simp only [Copy.requeueStrip, List.length_append, List.length_map, others, own]
  rw [releaseStrip_eq, releaseDone, take_requeueFenced, setCopy_copy_same, take_leaveAndGrant_answer, hlive]
  rfl

/-- DISCARD for a request: the leaving, the removal, the pass completion test, the answer, then the evaluations (R129,
R131). -/
theorem State.take_releaseStrip_discard (s : State) (k : CopySlot) (t : Strip) :
    let c := (s.leave k t true).copy k
    let others := c.queue.filter fun u => decide (u.index ≠ t.index)
    let w := (s.leaveAndGrant k t).setPort .plan
      ((s.replied .plan .ok (keyBytes (t.keyIn k) ++ [1#8] ++ u16 others.length)).port .plan)
    (s.take .plan).releaseStrip k t .discard =
      (if c.state = .cutting ∧ c.planClosed = true ∧ others = [] then
        (w.setCopy k { c with queue := others, state := .ready, planClosed := false }).raise .plan 2
      else w.setCopy k { c with queue := others }).handOn ((s.boundTo k).map Chore.evaluate) := by
  intro c others w
  have hlive : (((s.take .plan).discardFenced k t).copy k).queue = others := by
    rw [discardFenced, testPass_queue, modifyCopy_copy_same, take_leaveAndGrant_copy]
    rfl
  rw [releaseStrip_eq, releaseDone, hlive, take_discardFenced, apply_ite (State.answer · _ _ _),
    raise_answer, take_leaveAndGrant_answer, take_leaveAndGrant_answer]
  rfl

/-- The byte of an action (R129, R167). -/
def FenceAction.byte : FenceAction → Byte
  | .requeue => 0#8
  | .discard => 1#8

/-- A byte is that of an action, or R167 does not code it. -/
theorem actionOf_cases (b : Byte) :
    (∃ act : FenceAction, b = act.byte ∧ actionOf b = some act) ∨ (b ≠ 0#8 ∧ b ≠ 1#8) ∧ actionOf b = none := by
  by_cases h0 : b = 0#8
  · exact .inl ⟨.requeue, h0, if_pos h0⟩
  · by_cases h1 : b = 1#8
    · exact .inl ⟨.discard, h1, by rw [actionOf, if_neg h0, if_pos h1]⟩
    · exact .inr ⟨⟨h0, h1⟩, by rw [actionOf, if_neg h0, if_neg h1]⟩

/-- RELEASE FENCE with a good slot and a good action: its other checks in order, and the release (R129). -/
theorem exec_releaseFence {slot action : Byte} {k : CopySlot} {act : FenceAction} (hk : slotOf slot = some k)
    (hact : actionOf action = some act) (index : Word) (s : State) :
    exec (.releaseFence slot index action) s = .next (s.ifTaken .plan (
      if 4095 < index.toNat then s.replied .plan .badArg []
      else if (s.copy k).state = .free ∨ (s.copy k).state = .clearing then s.replied .plan .badState []
      else match (s.copy k).queue.find? fun t => decide (t.index = index.toNat) with
        | none => s.replied .plan .badState []
        | some t =>
          if t.state ≠ .fenced then s.replied .plan .badState []
          else if t.underMerge = true then s.replied .plan .held []
          else (s.take .plan).releaseStrip k t act)) := by
  have hanswer (c : AnswerCode) (d : List Byte) := s.take_answer .plan c d
  refine next_request ?_
  rw [hk, hact]
  refine if_congr Iff.rfl (hanswer _ _) (if_congr Iff.rfl (hanswer _ _) ?_)
  rw [State.take_copy, Copy.strip?]
  cases (s.copy k).queue.find? fun t => decide (t.index = index.toNat) with
  | none => exact hanswer _ _
  | some t => exact if_congr Iff.rfl (hanswer _ _) (if_congr Iff.rfl (hanswer _ _) rfl)

/-- Settles O52: the checks in order, and each action's effects with its answer. -/
theorem releaseFenceEffects : Obligations.ReleaseFenceEffects := by
  intro slot index action s
  cases hslot : slotOf slot with
  | none =>
    refine next_request ?_
    rw [hslot]
    exact s.take_answer _ _ _
  | some k =>
    obtain ⟨act, rfl, hact⟩ | ⟨hne, hact⟩ := actionOf_cases action
    · have hgood : ¬ (act.byte ≠ 0#8 ∧ act.byte ≠ 1#8) := by cases act <;> decide
      rw [exec_releaseFence hslot hact]
      refine congrArg (fun u => Host.Outcome.next (s.ifTaken .plan u)) (Eq.trans ?_ (if_neg hgood).symm)
      refine if_congr Iff.rfl rfl (if_congr Iff.rfl rfl ?_)
      cases (s.copy k).queue.find? fun t => decide (t.index = index.toNat) with
      | none => rfl
      | some t =>
        refine if_congr Iff.rfl rfl (if_congr Iff.rfl rfl ?_)
        dsimp only
        rw [← State.leaveAndGrant_eq]
        cases act with
        | requeue => exact s.take_releaseStrip_requeue k t
        | discard => exact s.take_releaseStrip_discard k t
    · refine next_request ?_
      rw [hslot, hact]
      exact (s.take_answer _ _ _).trans (if_pos hne).symm

end Sys2Proof.Machine

namespace Sys2Proof.Machine

/-! ## One cell of a merge (R142 to R144, R149) -/

/-- The cell a merge writes next (R142). -/
theorem Geometry.column_eq (g : Geometry) (i : Nat) : g.column i =
    if g.direction = .forward then g.first + i else g.first + g.length - 1 - i := by
  unfold column
  cases g.direction <;> rfl

theorem isSpoil_eq_any (t : Option (Nat × Bool)) (e before after : Nat) : isSpoil t e before after =
    t.any fun u => decide (before ≤ u.1 + e) && decide (u.1 + e < after) := by
  cases t <;> rfl

/-- The tallies after one more cell, as R143 and R144 give them: a write deepens a cell where the reported floor is
above the old one, and no check looks at an entry that the merge does not have. -/
theorem Merge.count_eq (m : Merge) (e before r : Nat) (t : Option (Nat × Bool)) :
    let entry := if m.checked then m.targets[m.done]? else none
    m.count e before (max before r) r t = { m with
      done := m.done + 1
      deepened := m.deepened + tally (decide (before < r))
      overcut := m.overcut + tally (entry.any fun u => isOvercut u e r)
      shortfall := m.shortfall + tally (entry.any fun u => isShortfall u e r)
      spoil := m.spoil + tally (t.any fun u => decide (before ≤ u.1 + e) && decide (u.1 + e < max before r)) } := by
  intro entry
  have hdeeper : decide (before < max before r) = decide (before < r) :=
    decide_eq_decide.mpr (lt_sup_iff.trans (or_iff_right (lt_irrefl before)))
  have hentry : (if m.checked then m.targets[m.done]? else none) = entry := rfl
  unfold count
  dsimp only
  rw [hdeeper, hentry, isSpoil_eq_any]
  cases entry <;> rfl

/-- The record of a merge after its next cell, of reported floor r (R142 to R144). -/
def State.mergeCounted (s : State) (m : Merge) (r : Nat) : Merge :=
  let c := s.copy m.key.copy
  let cx := m.geometry.column m.done
  let before := c.floor cx m.geometry.row
  m.count c.tolerance before (max before r) r (finalTarget s.relief c.mapping cx m.geometry.row)

section
variable (s : State) (n : SpindleId) (m : Merge) (r : Nat)

theorem State.mergeOne_copy : (s.mergeOne n m r).copy m.key.copy =
    (s.copy m.key.copy).setFloor (m.geometry.column m.done) m.geometry.row
      (max ((s.copy m.key.copy).floor (m.geometry.column m.done) m.geometry.row) r) := by
  rw [mergeOne, modifySpindle_copy, setCopy_copy_same]

theorem State.mergeOne_merge : ((s.mergeOne n m r).spindle n).merge = some (s.mergeCounted m r) := by
  rw [mergeOne, modifySpindle_spindle_same]
  rfl

theorem State.mergeOne_spindle_ne {j : SpindleId} (h : j ≠ n) : (s.mergeOne n m r).spindle j = s.spindle j := by
  rw [mergeOne, modifySpindle_spindle_ne _ _ _ _ h, setCopy_spindle]

end

/-! ### The spoil of two merges (R149) -/

/-- A floor that rises in two steps crosses the final target plus the tolerance at most once, and crosses it exactly when
the whole rise does (R149). -/
theorem tally_isSpoil_add (t : Option (Nat × Bool)) (e : Nat) {x y z : Nat} (hxy : x ≤ y) (hyz : y ≤ z) :
    tally (isSpoil t e x y) + tally (isSpoil t e y z) = tally (isSpoil t e x z) := by
  cases t with
  | none => rfl
  | some t =>
    simp only [isSpoil, tally, Bool.and_eq_true, decide_eq_true_eq]
    split_ifs <;> omega

/-- The spoil tally of a spindle's merge, 0 without one. -/
def State.spoilTally (s : State) (n : SpindleId) : Nat := ((s.spindle n).merge.map Merge.spoil).getD 0

theorem State.mergeOne_spoilTally (s : State) (n : SpindleId) (m : Merge) (r : Nat) :
    (s.mergeOne n m r).spoilTally n = (s.mergeCounted m r).spoil := by
  rw [spoilTally, mergeOne_merge]
  rfl

theorem State.mergeOne_spoilTally_ne (s : State) {n j : SpindleId} (h : j ≠ n) (m : Merge) (r : Nat) :
    (s.mergeOne n m r).spoilTally j = s.spoilTally j := by
  rw [spoilTally, mergeOne_spindle_ne _ _ _ _ h, spoilTally]

/-- Two merges at one cell, the first done before the second (R149). -/
theorem State.mergeOne_mergeOne (s : State) {n j : SpindleId} {a b : Merge} (ra rb : Nat) (hnj : n ≠ j)
    (hcopy : b.key.copy = a.key.copy) (hrow : b.geometry.row = a.geometry.row)
    (hcol : b.geometry.column b.done = a.geometry.column a.done) :
    let c := s.copy a.key.copy
    let cx := a.geometry.column a.done
    let cy := a.geometry.row
    let final := max (c.floor cx cy) (max ra rb)
    let v := (s.mergeOne n a ra).mergeOne j b rb
    (v.copy a.key.copy).floor cx cy = final ∧
      v.spoilTally n + v.spoilTally j = a.spoil + b.spoil +
        tally (isSpoil (finalTarget s.relief c.mapping cx cy) c.tolerance (c.floor cx cy) final) := by
  intro c cx cy final v
  let u := s.mergeOne n a ra
  have hfinal : max (max (c.floor cx cy) ra) rb = final := max_assoc _ _ _
  have hfirst : u.copy a.key.copy = c.setFloor cx cy (max (c.floor cx cy) ra) := s.mergeOne_copy n a ra
  have hbefore : (u.copy a.key.copy).floor cx cy = max (c.floor cx cy) ra := by rw [hfirst, Copy.floor_setFloor_same]
  constructor
  · have h : v.copy b.key.copy = _ := u.mergeOne_copy j b rb
    rw [hcopy, hrow, hcol, hbefore, hfinal] at h
    rw [h, Copy.floor_setFloor_same]
  · have hn : v.spoilTally n = a.spoil + tally (isSpoil (finalTarget s.relief c.mapping cx cy) c.tolerance
        (c.floor cx cy) (max (c.floor cx cy) ra)) :=
      (u.mergeOne_spoilTally_ne hnj b rb).trans (s.mergeOne_spoilTally n a ra)
    have hj : v.spoilTally j = b.spoil + tally (isSpoil (finalTarget s.relief c.mapping cx cy) c.tolerance
        (max (c.floor cx cy) ra) final) := by
      refine (u.mergeOne_spoilTally j b rb).trans ?_
      dsimp only [mergeCounted]
      rw [hcopy, hrow, hcol, hbefore, hfinal, hfirst]
      rfl
    rw [hn, hj, Nat.add_add_add_comm, tally_isSpoil_add _ _ (le_max_left _ _) (le_of_le_of_eq (le_max_left _ _) hfinal)]

/-- Settles O57: each order is a pair of merges done one after the other. -/
theorem mergesCommute : Obligations.MergesCommute := by
  intro s n j a b ra rb hnj hcopy hrow hcol k cx cy f v w final spoilOf crossed
  obtain ⟨hv, hvs⟩ := s.mergeOne_mergeOne ra rb hnj hcopy.symm hrow.symm hcol.symm
  obtain ⟨hw, hws⟩ := s.mergeOne_mergeOne rb ra hnj.symm hcopy hrow hcol
  rw [← hcopy, ← hrow, ← hcol, max_comm rb ra] at hw hws
  rw [isSpoil_eq_any] at hvs hws
  exact ⟨hv, hw, hvs, (Nat.add_comm _ _).trans (hws.trans (congrArg (· + crossed) (Nat.add_comm _ _)))⟩

/-! ### MERGE_CELL -/

/-- A merge with a cell to do writes it, and completes with its last one (R142, R145). -/
theorem exec_mergeCell {s : State} {n : SpindleId} {m : Merge} {r : Nat} (hm : (s.spindle n).merge = some m)
    (hr : m.floors[m.done]? = some r) : exec (.mergeCell n) s = .next
      (if m.floors.length ≤ m.done + 1 then (s.mergeOne n m r).completeMerge n (s.mergeCounted m r)
        else s.mergeOne n m r) := by
  refine congrArg Host.Outcome.next ?_
  simp only [hm, hr, s.mergeOne_merge]
  rfl

/-- Settles O55: the cell written and the tallies raised, and the floors of the copy read back. -/
theorem mergeCellEffects : Obligations.MergeCellEffects := by
  refine ⟨fun s n h => congrArg Host.Outcome.next (by rw [h]), fun s n m r hm hr => ?_⟩
  intro k c e cx cy before one entry m' v
  have hcx : m.geometry.column m.done = cx := m.geometry.column_eq m.done
  have hcount : s.mergeCounted m r = m' := by
    rw [State.mergeCounted, Merge.count_eq, hcx]
    rfl
  have hv : s.mergeOne n m r = v := by
    have h : s.mergeOne n m r = (s.setSpindle n { s.spindle n with merge := some (s.mergeCounted m r) }).setCopy k
        (c.setFloor (m.geometry.column m.done) cy (max (c.floor (m.geometry.column m.done) cy) r)) := rfl
    rw [h, hcount, hcx]
  refine ⟨by rw [exec_mergeCell hm hr, hcount, hv], fun x y hx hc => ?_⟩
  rw [State.setCopy_copy_same, Copy.floor_setFloor]
  exact if_congr ⟨fun h => floorKey_inj hx hc h.symm, fun ⟨h1, h2⟩ => by rw [h1, h2]⟩ rfl rfl

end Sys2Proof.Machine

namespace Sys2Proof.Machine

/-! ## REPORT CUT (R138 to R141, R152) -/

/-! ### A report's key and merge -/

/-- A report without a good slot names no strip (R138 case 1). -/
theorem Report.key?_of_bad_slot {r : Report} (h : slotOf r.slot = none) : r.key? = none := by
  rw [key?, h]

/-- A report with a good slot names a strip unless its index is out of range (R138 case 1). -/
theorem Report.key?_of_slot {r : Report} {k : CopySlot} (h : slotOf r.slot = some k) : r.key? =
    if 4095 < r.index.toNat then none else some { copy := k, index := r.index.toNat, issue := r.issue } := by
  rw [key?, h, ← ite_not]
  exact if_congr Nat.not_lt.symm rfl rfl

/-- The merge of a report (R140, R141): its floors brought into range, those out of it counted (R138), nothing done. -/
theorem Report.merge_eq (r : Report) (kind : MergeKind) (key : StripKey) (g : Geometry) (checked : Bool)
    (targets : List Entry) : r.merge kind key g checked targets =
      { kind := kind, key := key, geometry := g, checked := checked, targets := targets
        floors := r.floors.map fun d => min 262143 d.toNat
        ranged := r.floors.countP fun d => decide (262143 < d.toNat)
        done := 0, deepened := 0, overcut := 0, shortfall := 0, spoil := 0, answers := true } := by
  rw [List.countP_eq_length_filter]
  rfl

/-- The kind of a held report's merge, as its strip is ISSUED or FENCED (R138, R140). -/
def heldKind (t : Strip) : MergeKind := if t.state = .issued then .heldIssued else .heldFenced

/-- The merge that a report of held strip t starts (R140, R141): checked when the strip is COMPLETE, against the strip's
entries. -/
def Spindle.heldMerge (sp : Spindle) (r : Report) (key : StripKey) (h : Held) (t : Strip) : Merge :=
  let checked := decide (h.status = .complete)
  r.merge (heldKind t) key t.geometry checked (if checked then sp.queue.filter fun e => decide (e.key = key) else [])

/-! ### The case of a report -/

section
variable {s : State} {n : SpindleId} {r : Report}

/-- A report that names no strip, or carries no good number of floors, is refused first (R138 case 1). -/
theorem State.reportCase_of_bad (h : r.key? = none ∨ r.floors.length < 1 ∨ 256 < r.floors.length) :
    s.reportCase n r = .badArg := by
  unfold reportCase
  cases hkey : r.key? with
  | none => rfl
  | some key => exact if_pos (h.resolve_left (by rw [hkey]; exact Option.some_ne_none key))

section
variable {key : StripKey} (hkey : r.key? = some key) (hcount : ¬ (r.floors.length < 1 ∨ 256 < r.floors.length))
include hkey hcount

/-- A report of a strip the spindle holds (R138 cases 2 to 4). -/
theorem State.reportCase_of_held {h : Held} {t : Strip} (hheld : (s.spindle n).heldOf key = some h)
    (hstrip : s.strip? key = some t) : s.reportCase n r =
      if r.floors.length = t.length then .held t h.status else .badArg := by
  simp only [reportCase, hkey, if_neg hcount, hheld, hstrip]

/-- A report of a strip the spindle does not hold goes by the departed list (R138 cases 5 to 7). -/
theorem State.reportCase_of_not_held (h : (s.spindle n).heldOf key = none ∨ s.strip? key = none) :
    s.reportCase n r = s.departedCase n key r.floors.length := by
  simp only [reportCase, hkey, if_neg hcount]
  obtain h | h := h
  · rw [h]
  · rw [h]
    cases (s.spindle n).heldOf key <;> rfl

end

/-! ### A report decided -/

theorem State.decideReport_of_badArg (h : s.reportCase n r = .badArg) :
    s.decideReport n r = s.answer (.spindle n) .badArg [] := by
  rw [decideReport, h]

theorem State.decideReport_of_notHeld (h : s.reportCase n r = .notHeld) :
    s.decideReport n r = s.answer (.spindle n) .notHeld [] := by
  rw [decideReport, h]

/-- A stale report starts a merge that marks nothing (R141). -/
theorem State.decideReport_of_stale {d : Departed} (h : s.reportCase n r = .stale d) :
    s.decideReport n r = s.setSpindle n
      { s.spindle n with merge := some (r.merge .stale d.key d.geometry false []) } := by
  rw [decideReport, h]
  rfl

/-- A held report starts a merge, stops the strip's lease and marks it (R124, R140). -/
theorem State.decideReport_of_held {key : StripKey} (hkey : r.key? = some key) {h : Held} {t : Strip}
    (hcase : s.reportCase n r = .held t h.status) : s.decideReport n r =
      (s.setSpindle n { s.spindle n with merge := some ((s.spindle n).heldMerge r key h t) }).updateStrip key
        Strip.underReport := by
  simp only [decideReport, hcase, hkey, Spindle.heldMerge, heldKind]
  cases t.state <;> rfl

variable {key : StripKey} (hkey : r.key? = some key) (hcount : ¬ (r.floors.length < 1 ∨ 256 < r.floors.length))
include hkey hcount

theorem State.decideReport_held {h : Held} {t : Strip} (hheld : (s.spindle n).heldOf key = some h)
    (hstrip : s.strip? key = some t) : s.decideReport n r =
      if r.floors.length = t.length then
        (s.setSpindle n { s.spindle n with merge := some ((s.spindle n).heldMerge r key h t) }).updateStrip key
          Strip.underReport
      else s.answer (.spindle n) .badArg [] := by
  have hcase : s.reportCase n r = _ := reportCase_of_held hkey hcount hheld hstrip
  split_ifs at hcase ⊢
  · exact decideReport_of_held hkey hcase
  · exact decideReport_of_badArg hcase

theorem State.decideReport_not_held (hheld : (s.spindle n).heldOf key = none ∨ s.strip? key = none) :
    s.decideReport n r = match (s.spindle n).departedOf key with
      | some d =>
        if (s.spindle n).bound = some key.copy then
          if r.floors.length = d.geometry.length then
            s.setSpindle n { s.spindle n with merge := some (r.merge .stale key d.geometry false []) }
          else s.answer (.spindle n) .badArg []
        else s.answer (.spindle n) .notHeld []
      | none => s.answer (.spindle n) .notHeld [] := by
  have hcase : s.reportCase n r = _ := reportCase_of_not_held hkey hcount hheld
  unfold departedCase at hcase
  cases hd : (s.spindle n).departedOf key with
  | none =>
    rw [hd] at hcase
    exact decideReport_of_notHeld hcase
  | some d =>
    have hdkey : d.key = key := of_decide_eq_true (List.find?_some hd :)
    simp only [hd] at hcase
    dsimp only
    split_ifs at hcase ⊢
    · rw [decideReport_of_stale hcase, hdkey]
    · exact decideReport_of_badArg hcase
    · exact decideReport_of_notHeld hcase

end

/-- REPORT CUT waits behind a merge of its port, and is decided at once without one (R152). -/
theorem exec_reportCut (n : SpindleId) (r : Report) (s : State) :
    exec (.reportCut n r.slot r.index r.issue r.floors) s = .next (s.ifTaken (.spindle n) (
      if (s.spindle n).merge ≠ none then
        (s.working (.spindle n)).setSpindle n { s.spindle n with waiting := some r }
      else (s.working (.spindle n)).decideReport n r)) := by
  refine next_request ?_
  rw [State.take_spindle, State.take_eq_working]
  cases (s.spindle n).merge <;> rfl

/-- Settles O54: the report's key and number of floors, then its strip held or departed. -/
theorem reportCutDecided : Obligations.ReportCutDecided := by
  intro n slot index issue floors s p sp count merge
  let r : Report := { slot := slot, index := index, issue := issue, floors := floors }
  have hanswer (c : AnswerCode) : (s.working p).answer (.spindle n) c [] = s.replied p c [] := by
    rw [← State.take_eq_working, State.take_answer]
  have hmerge (kind : MergeKind) (key : StripKey) (g : Geometry) (checked : Bool) (targets : List Entry) :
      r.merge kind key g checked targets = merge kind key g checked targets := r.merge_eq kind key g checked targets
  have hbad (h : r.key? = none ∨ count < 1 ∨ 256 < count) :
      (s.working p).decideReport n r = s.replied p .badArg [] :=
    (State.decideReport_of_badArg (State.reportCase_of_bad h)).trans (hanswer _)
  refine (exec_reportCut n r s).trans
    (congrArg (fun u => Host.Outcome.next (s.ifTaken p u)) (if_congr Iff.rfl rfl ?_))
  cases hslot : slotOf slot with
  | none => exact hbad (.inl (Report.key?_of_bad_slot hslot))
  | some k =>
    have hindex := Report.key?_of_slot (r := r) hslot
    by_cases hrange : 4095 < index.toNat ∨ count < 1 ∨ 256 < count
    · exact (hbad (hrange.imp_left fun h => hindex.trans (if_pos h))).trans (if_pos hrange).symm
    · obtain ⟨hin, hcount⟩ := not_or.mp hrange
      have hkey := hindex.trans (if_neg hin)
      have hleft := State.decideReport_not_held (s := s.working p) (n := n) hkey hcount
      refine Eq.trans ?_ (if_neg hrange).symm
      simp only [hanswer, hmerge] at hleft
      simp only [ne_eq, ite_not]
      cases hheld : sp.issued.find? fun h => decide (h.key = ⟨k, index.toNat, issue⟩) with
      | none => exact hleft (.inl hheld)
      | some h =>
        cases hstrip : s.strip? ⟨k, index.toNat, issue⟩ with
        | none => exact hleft (.inr hstrip)
        | some t =>
          have hstart := State.decideReport_held (s := s.working p) hkey hcount hheld hstrip
          simp only [hanswer, Spindle.heldMerge, hmerge] at hstart
          exact hstart

end Sys2Proof.Machine

namespace Sys2Proof.Machine

/-! ## The completion of a merge (R145 to R148, R152) -/

/-- The merge's counters raised and spindle n's merge over (R145 step 1). -/
def State.mergeOver (s : State) (n : SpindleId) (m : Merge) : State :=
  (s.setSpindle n { s.spindle n with merge := none }).setCopy m.key.copy
    { s.copy m.key.copy with counters := (s.copy m.key.copy).counters.countMerge m }

section
variable (s : State) (n : SpindleId) (m : Merge)

/-- The steps of a completion in their order, the counters and the end of the merge as one (R145). -/
theorem State.completeMerge_eq : s.completeMerge n m =
    ((((s.mergeOver n m).settleMerge m).mergeEvents m.key.copy m).answerMerge n m ((s.mergeOver n m).mergeOutcome m)
      (((s.mergeOver n m).settleMerge m).pausesOnSpoil m.key.copy m)).handOn ((s.mergeOver n m).completionChores n m) :=
  rfl

/-- The end of a merge changes no binding. -/
theorem State.mergeOver_bound (j : SpindleId) : ((s.mergeOver n m).spindle j).bound = (s.spindle j).bound := by
  rw [mergeOver, setCopy_spindle]
  by_cases h : j = n
  · rw [h, setSpindle_spindle_same]
  · rw [setSpindle_spindle_ne _ _ _ _ h]

/-- The work a completion hands on, read in the state before it (R145, R152). -/
theorem State.mergeOver_completionChores : (s.mergeOver n m).completionChores n m =
    (match (s.mergeOver n m).mergedStrip m with
      | none => []
      | some t => (s.boundTo m.key.copy).map Chore.evaluate
          ++ if s.computes (t.keyIn m.key.copy) then [Chore.grant] else [])
      ++ if (s.spindle n).waiting ≠ none then [Chore.report n] else [] := by
  have hwaiting : ((s.mergeOver n m).spindle n).waiting = (s.spindle n).waiting := by
    rw [mergeOver, setCopy_spindle, setSpindle_spindle_same]
  unfold completionChores
  rw [hwaiting]
  refine congrArg₂ (· ++ ·) ?_ (if_congr Option.isSome_iff_ne_none rfl rfl)
  cases (s.mergeOver n m).mergedStrip m with
  | none => rfl
  | some t =>
    dsimp only [leavingChores]
    rw [boundTo_congr (s.mergeOver_bound n m)]
    rfl

end

/-! ### The strip settled (R146) -/

section
variable (s : State) (m : Merge)

/-- Only a held merge has a strip to settle. -/
theorem State.kind_of_mergedStrip {s : State} {m : Merge} {t : Strip} (h : s.mergedStrip m = some t) :
    m.kind ≠ .stale := by
  intro hstale
  rw [mergedStrip, if_pos hstale] at h
  cases h

/-- The outcome of a merge with a strip goes by its checks, and then by the strip's retries (R146, R79). -/
theorem State.mergeOutcome_eq : s.mergeOutcome m = match s.mergedStrip m with
    | none => .none
    | some t =>
      if m.checked = true ∧ m.shortfall = 0 then .removed
      else if t.retry < 3 then .requeued (t.retry + 1)
      else .stuck := by
  unfold mergeOutcome
  cases h : s.mergedStrip m with
  | none => rfl
  | some t => exact if_neg (kind_of_mergedStrip h)

/-- A strip settled, outcome by outcome: it leaves, and then is removed, goes to the tail or is dropped as stuck
(R146). -/
theorem State.settleMerge_eq : s.settleMerge m = match s.mergedStrip m with
    | none => s
    | some t =>
      if m.checked = true ∧ m.shortfall = 0 then s.settle m.key.copy t .removed
      else if t.retry < 3 then s.settle m.key.copy t (.requeued (t.retry + 1))
      else s.settle m.key.copy t .stuck := by
  unfold settleMerge
  rw [mergeOutcome_eq]
  cases s.mergedStrip m with
  | none => rfl
  | some t => simp only [apply_ite (s.settle m.key.copy t)]

end

/-- Settles O56: each step of the completion, read off its own function. -/
theorem mergeCompletionEffects : Obligations.MergeCompletionEffects := by
  intro s n m k c raised s1 strip good outcome tested s2 paused s3 s4 s5 s6 s7
  have hover : s.mergeOver n m = s1 := rfl
  have houtcome : s1.mergeOutcome m = outcome := s1.mergeOutcome_eq m
  have hsettled : s1.settleMerge m = s2 := s1.settleMerge_eq m
  have hpaused : s2.pausesOnSpoil k m = paused := rfl
  have hevents : s2.mergeEvents k m = s6 := rfl
  have hanswered : s6.answerMerge n m outcome paused = s7 := rfl
  rw [s.completeMerge_eq, s.mergeOver_completionChores, hover, houtcome, hsettled, hpaused, hevents, hanswered]
  rfl

end Sys2Proof.Machine

namespace Sys2Proof
open Machine

/-! ## A frame and its CRC (R157) -/

/-- The command a frame with a good CRC spells, by the verdict of R157's checks 2 and 3. -/
def Verdict.command (p : PortId) : Verdict → Instr
  | .good i => i
  | .noCode => .badFrame p .code
  | .badLength => .badFrame p .length

/-- With a code other than FETCH's, a frame is taken apart into its bytes before the last two and its CRC. -/
theorem decodeFrame_of_crc (p : PortId) {code : Byte} (h : code ≠ 0x01#8) (args : List Byte) (x y : Byte) :
    decodeFrame p (code :: args ++ [x, y]) =
      if [x, y] = word2 (crc16 (code :: args)) then (decodeCommand p code args).command p
      else .badFrame p (.crc code) := by
  obtain ⟨b2, b3, rest, hrest, hlen⟩ : ∃ b2 b3 rest, args ++ [x, y] = b2 :: b3 :: rest ∧ rest.length = args.length := by
    rcases args with _ | ⟨a, _ | ⟨b, l⟩⟩
    · exact ⟨x, y, [], rfl, rfl⟩
    · exact ⟨a, x, [y], rfl, rfl⟩
    · exact ⟨a, b, l ++ [x, y], rfl, by simp⟩
  have htake : (code :: b2 :: b3 :: rest).take (rest.length + 1) = code :: args := by
    rw [← hrest, hlen, List.take_succ_cons, List.take_left]
  have hdrop : (code :: b2 :: b3 :: rest).drop (rest.length + 1) = [x, y] := by
    rw [← hrest, hlen, List.drop_succ_cons, List.drop_left]
  rw [List.cons_append, hrest]
  simp only [decodeFrame, if_neg h, htake, hdrop, List.drop_succ_cons, List.drop_zero]
  refine if_congr Iff.rfl ?_ rfl
  cases decodeCommand p code args <;> rfl

/-- A frame with its own CRC passes the first check. -/
theorem decodeFrame_withCrc (p : PortId) {code : Byte} (h : code ≠ 0x01#8) (args : List Byte) :
    decodeFrame p (withCrc (code :: args)) = (decodeCommand p code args).command p :=
  (decodeFrame_of_crc p h args _ _).trans (if_pos rfl)

theorem crc16_fetch : crc16 [0x01#8] = 0xF1D1#16 := by decide

/-- A FETCH, by its first byte (R159): its CRC is F1D1h. -/
theorem decodeFrame_fetch (p : PortId) (b2 b3 : Byte) (rest : List Byte) :
    decodeFrame p (0x01#8 :: b2 :: b3 :: rest) =
      .fetch p (decide ([0xF1#8, 0xD1#8] = [b2, b3])) (rest.length + 3) := by
  simp only [decodeFrame, crc16_fetch, if_pos]
  rfl

theorem crc16_pair (a b : Byte) : crc16 [a, b] = crcByte (crcByte 0xFFFF#16 a) b := rfl

/-- Settles O4: five frames with a good CRC, the checks on the code and on the length, a CRC of 28D8h that is not the
frame's, and a frame too short to be a request. -/
theorem frameExamples : Obligations.FrameExamples := by
  have hfirst : crcByte 0xFFFF#16 0x21#8 = 0xD5B3#16 := by decide
  have hsecond : crcByte 0xD5B3#16 0x00#8 = 0x28D8#16 := by decide
  have hcrc : ¬ [0x00#8, 0x00#8] = word2 (crc16 [0x21#8, 0x00#8]) := by
    rw [crc16_pair, hfirst, hsecond]
    decide
  exact ⟨decodeFrame_fetch .plan _ _ [], decodeFrame_withCrc .scan (by decide) _,
    decodeFrame_withCrc (.spindle 2) (by decide) _, decodeFrame_withCrc .plan (by decide) _,
    decodeFrame_withCrc .plan (by decide) _, decodeFrame_withCrc .scan (by decide) _,
    decodeFrame_withCrc .plan (by decide) _,
    (decodeFrame_of_crc .scan (by decide) [0x00#8] _ _).trans (if_neg hcrc), rfl⟩

/-! ## Operands back from their bytes (R167) -/

theorem word2_append (w : Word) : w.extractLsb' 8 8 ++ w.extractLsb' 0 8 = w := by
  simp (disch := rfl) only [BitVec.extractLsb'_append_extractLsb'_eq_extractLsb']
  exact BitVec.extractLsb'_eq_self

theorem depth3_append (d : Depth) : d.extractLsb' 16 8 ++ d.extractLsb' 8 8 ++ d.extractLsb' 0 8 = d := by
  simp (disch := rfl) only [BitVec.extractLsb'_append_extractLsb'_eq_extractLsb']
  exact BitVec.extractLsb'_eq_self

theorem contentOf_content8 (c : BitVec 64) :
    contentOf (c.extractLsb' 56 8) (c.extractLsb' 48 8) (c.extractLsb' 40 8) (c.extractLsb' 32 8)
      (c.extractLsb' 24 8) (c.extractLsb' 16 8) (c.extractLsb' 8 8) (c.extractLsb' 0 8) = c := by
  simp (disch := rfl) only [contentOf, BitVec.extractLsb'_append_extractLsb'_eq_extractLsb']
  exact BitVec.extractLsb'_eq_self

/-- Two flags above six bits of a row, read back from their byte. -/
theorem flags_of_byte (x y : Bool) (r : BitVec 6) :
    let b : Byte := BitVec.ofBool x ++ BitVec.ofBool y ++ r
    b.getLsbD 7 = x ∧ b.getLsbD 6 = y ∧ b.extractLsb' 0 6 = r := by
  refine ⟨?_, ?_, BitVec.extractLsb'_append_eq_right⟩ <;> rw [BitVec.getLsbD_append] <;> cases x <;> cases y <;> rfl

theorem descriptorOf_bytes (d : Descriptor) : descriptorOf
    (BitVec.ofBool d.endMark ++ BitVec.ofBool (decide (d.direction = .reverse)) ++ d.row.extractLsb' 8 6)
    (d.row.extractLsb' 0 8) (d.first.extractLsb' 8 8) (d.first.extractLsb' 0 8) d.lengthCode = d := by
  obtain ⟨hend, hdir, hhigh⟩ := flags_of_byte d.endMark (decide (d.direction = .reverse)) (d.row.extractLsb' 8 6)
  have hrow : d.row.extractLsb' 8 6 ++ d.row.extractLsb' 0 8 = d.row := by
    simp (disch := rfl) only [BitVec.extractLsb'_append_extractLsb'_eq_extractLsb']
    exact BitVec.extractLsb'_eq_self
  unfold descriptorOf
  rw [hend, hdir, hhigh, hrow, word2_append]
  rcases d with ⟨e, _ | _, r, f, l⟩ <;> rfl

theorem wordsOf_flatMap (ws : List Word) : wordsOf (ws.flatMap word2) = some ws := by
  induction ws with
  | nil => rfl
  | cons w ws ih => simp [word2, wordsOf, ih, word2_append]

theorem depthsOf_flatMap (ds : List Depth) : depthsOf (ds.flatMap depth3) = some ds := by
  induction ds with
  | nil => rfl
  | cons d ds ih => simp [depth3, depthsOf, ih, depth3_append]

theorem descriptorsOf_flatMap (ds : List Descriptor) : descriptorsOf (ds.flatMap descriptorBytes) = some ds := by
  induction ds with
  | nil => rfl
  | cons d ds ih => simp [descriptorBytes, word2, descriptorsOf, ih, descriptorOf_bytes]

/-! ## Every request from its code and its argument bytes (R157, R169) -/

/-- The code and the argument bytes of a request spell the request on its port. -/
def Instr.Spelt (i : Instr) (code : Byte) : Prop := decodeCommand (requestPort i) code (argumentBytes i) = .good i

theorem spelt_putSamples (tx ty : Byte) (offset : Word) (samples : List Word)
    (h : (Instr.putSamples tx ty offset samples).wellFormed = true) :
    (Instr.putSamples tx ty offset samples).Spelt 0x21#8 := by
  have hlen : samples.length ≤ 255 := of_decide_eq_true h
  show (match wordsOf (samples.flatMap word2) with
    | some ws => if ws.length = (BitVec.ofNat 8 samples.length).toNat then
        Verdict.good (.putSamples tx ty (offset.extractLsb' 8 8 ++ offset.extractLsb' 0 8) ws) else .badLength
    | none => .badLength) = _
  rw [wordsOf_flatMap, word2_append]
  exact if_pos (by rw [BitVec.toNat_ofNat]; omega)

theorem spelt_reportCut (n : SpindleId) (slot : Byte) (index : Word) (issue : Byte) (floors : List Depth)
    (h : (Instr.reportCut n slot index issue floors).wellFormed = true) :
    (Instr.reportCut n slot index issue floors).Spelt 0x44#8 := by
  have hlen : floors.length ≤ 65535 := of_decide_eq_true h
  show (match depthsOf (floors.flatMap depth3) with
    | some ds => if ds.length = ((BitVec.ofNat 16 floors.length).extractLsb' 8 8 ++
          (BitVec.ofNat 16 floors.length).extractLsb' 0 8 : Word).toNat then
        Verdict.good (.reportCut n slot (index.extractLsb' 8 8 ++ index.extractLsb' 0 8) issue ds) else .badLength
    | none => .badLength) = _
  rw [depthsOf_flatMap, word2_append, word2_append]
  exact if_pos (by rw [BitVec.toNat_ofNat]; omega)

theorem spelt_loadPlan (slot : Byte) (ds : List Descriptor) (h : (Instr.loadPlan slot ds).wellFormed = true) :
    (Instr.loadPlan slot ds).Spelt 0x63#8 := by
  have hlen : 1 ≤ ds.length ∧ ds.length ≤ 32 := of_decide_eq_true h
  show Verdict.orElse (match descriptorsOf (ds.flatMap descriptorBytes) with
    | some l => if 1 ≤ l.length ∧ l.length ≤ 32 then Verdict.good (.loadPlan slot l) else .badLength
    | none => .badLength) _ = _
  rw [descriptorsOf_flatMap]
  simp only [if_pos hlen]
  rfl

theorem spelt_defineCopy (args : CopyArgs) : (Instr.defineCopy args).Spelt 0x61#8 := by
  show Verdict.good (.defineCopy _) = _
  simp only [word2_append, depth3_append]

/-- Every code but FETCH's stands for its request, with every operand at every value (R169). -/
theorem spelt_of_code {i : Instr} {code : Byte} (hi : i.wellFormed = true) (hcode : commandCode i = some code)
    (hfetch : code ≠ 0x01#8) : i.Spelt code := by
  cases i with
  | fetch p good clocked =>
    cases hcode
    exact absurd rfl hfetch
  | putSamples tx ty offset samples =>
    cases hcode
    exact spelt_putSamples tx ty offset samples hi
  | reportCut n slot index issue floors =>
    cases hcode
    exact spelt_reportCut n slot index issue floors hi
  | loadPlan slot ds =>
    cases hcode
    exact spelt_loadPlan slot ds hi
  | defineCopy args =>
    cases hcode
    exact spelt_defineCopy args
  | clearEvents p mask =>
    cases hcode
    exact congrArg (fun m => Verdict.good (.clearEvents p m)) (word2_append mask)
  | setAttention p mask term =>
    cases hcode
    exact congrArg (fun m => Verdict.good (.setAttention p m term)) (word2_append mask)
  | viewStaging tx ty offset count =>
    cases hcode
    exact congrArg (fun o => Verdict.good (.viewStaging tx ty o count)) (word2_append offset)
  | sealTile tx ty crc =>
    cases hcode
    exact congrArg (fun c => Verdict.good (.sealTile tx ty c)) (word2_append crc)
  | defineRelief mw mh =>
    cases hcode
    exact congrArg₂ (fun w h => Verdict.good (.defineRelief w h)) (word2_append mw) (word2_append mh)
  | readRelief iy ix0 count =>
    cases hcode
    exact congrArg₂ (fun y x => Verdict.good (.readRelief y x count)) (word2_append iy) (word2_append ix0)
  | setPass slot kind stepDown allowance =>
    cases hcode
    exact congrArg₂ (fun p a => Verdict.good (.setPass slot kind p a)) (word2_append stepDown) (word2_append allowance)
  | readFloors slot cy c0 count =>
    cases hcode
    exact congrArg₂ (fun y x => Verdict.good (.readFloors slot y x count)) (word2_append cy) (word2_append c0)
  | readStrip slot selector value =>
    cases hcode
    exact congrArg (fun v => Verdict.good (.readStrip slot selector v)) (word2_append value)
  | setPrefetch n threshold =>
    cases hcode
    exact congrArg (fun x => Verdict.good (.setPrefetch n x)) (word2_append threshold)
  | releaseFence slot index action =>
    cases hcode
    exact congrArg (fun x => Verdict.good (.releaseFence slot x action)) (word2_append index)
  | holdSpindle spindle time =>
    cases hcode
    exact congrArg (fun x => Verdict.good (.holdSpindle spindle x)) (word2_append time)
  | postOrder spindle content =>
    cases hcode
    exact congrArg (fun c => Verdict.good (.postOrder spindle c)) (contentOf_content8 content)
  | postNote n content =>
    cases hcode
    exact congrArg (fun c => Verdict.good (.postNote n c)) (contentOf_content8 content)
  | statusPoll | badFrame | powerOn | resetPin | resetRelease | millisecondTick | leaseExpiry | holdCountdownEnd
  | rescanPreloadCompletion | sealCompletion | clearCompletion | computeCell | mergeCell => cases hcode
  | status | portReset | warmReset | openTile | dropTile | startPass | pauseCopy | resumeCopy | closeCopy
  | bindSpindle | unbindSpindle | readCopy | clearPlan | takeStrip | drawTargets | rewindStrip | renew | readOrder
  | readNote =>
    cases hcode
    rfl

/-- A FETCH frame as it is spelt, with a good or a wrong CRC (R159). -/
theorem decodeFrame_encoded_fetch {p : PortId} {good : Bool} {clocked : Nat} (h : 3 ≤ clocked) :
    decodeFrame p ([0x01#8, 0xF1#8, if good then 0xD1#8 else 0x2E#8] ++ List.replicate (clocked - 3) 0#8) =
      .fetch p good clocked := by
  have hcrc : decide ([0xF1#8, 0xD1#8] = [0xF1#8, if good then 0xD1#8 else 0x2E#8]) = good := by
    cases good <;> decide
  refine (decodeFrame_fetch p _ _ (List.replicate (clocked - 3) 0#8)).trans ?_
  rw [hcrc, List.length_replicate, Nat.sub_add_cancel h]

theorem commandCode_eq_fetch {i : Instr} (h : commandCode i = some 0x01#8) :
    ∃ p good clocked, i = .fetch p good clocked := by
  cases i with
  | fetch p good clocked => exact ⟨p, good, clocked, rfl⟩
  | _ => simp [commandCode] at h

theorem encodeFrame_of_not_fetch {i : Instr} (h : ¬ ∃ p good clocked, i = .fetch p good clocked) :
    encodeFrame i = (commandCode i).map fun code => withCrc (code :: argumentBytes i) := by
  cases i with
  | fetch p good clocked => exact absurd ⟨p, good, clocked, rfl⟩ h
  | _ => rfl

/-- Settles O5: a FETCH by its first byte, and every other request by its code and its argument bytes behind a good
CRC. -/
theorem frameRoundTrip : Obligations.FrameRoundTrip := by
  intro i bytes hi he
  by_cases hfetch : ∃ p good clocked, i = .fetch p good clocked
  · obtain ⟨p, good, clocked, rfl⟩ := hfetch
    cases he
    exact decodeFrame_encoded_fetch (of_decide_eq_true hi)
  · rw [encodeFrame_of_not_fetch hfetch] at he
    obtain ⟨code, hcode, rfl⟩ := Option.map_eq_some_iff.mp he
    have hne : code ≠ 0x01#8 := fun h => hfetch (commandCode_eq_fetch (h ▸ hcode))
    rw [decodeFrame_withCrc _ hne, spelt_of_code hi hcode hne]
    rfl

end Sys2Proof

namespace Sys2Proof.Machine

/-! ## The queue of waiting commands stands beside every command (R154, log 1) -/

/-- Settles O1: a step is the command at the front, by definition. -/
theorem stepRunsFront : Obligations.StepRunsFront := fun _ _ _ => ⟨rfl, rfl⟩

/-- A command answers, and leaves with another queue what it leaves with this one. -/
def QueueBlind (i : Instr) : Prop :=
  ∀ s q, ∃ t, exec i s = .next t ∧ exec i (s.withQueue q) = .next (t.withQueue q)

section
variable {i : Instr}

/-- A command whose effect commutes with replacing the queue. -/
theorem QueueBlind.of_next {f : State → State} (he : ∀ s, exec i s = .next (f s))
    (hf : ∀ s q, f (s.withQueue q) = (f s).withQueue q) : QueueBlind i :=
  fun s q => ⟨f s, he s, by rw [he, hf]⟩

theorem QueueBlind.of_request {p : PortId} {f : State → State} (he : ∀ s, exec i s = .next (s.request p f))
    (hf : ∀ s q, f (s.withQueue q) = (f s).withQueue q) : QueueBlind i :=
  .of_next he fun s q => s.request_withQueue q p f fun s => hf s q

theorem QueueBlind.of_onCopy {b : Byte} {f : CopySlot → State → State}
    (he : ∀ s, exec i s = .next (s.onCopy b f))
    (hf : ∀ k s q, f k (s.withQueue q) = (f k s).withQueue q) : QueueBlind i :=
  .of_next he fun s q => s.onCopy_withQueue q b f fun k s => hf k s q

end

/-- What commutes with replacing the queue, done on the same state with another queue. -/
theorem State.op_withQueue {u v : State} {q : List Instr} (g : State → State)
    (hg : ∀ s : State, g (s.withQueue q) = (g s).withQueue q) (h : u = v.withQueue q) : g u = (g v).withQueue q :=
  h ▸ hg v

/-- Work handed on by the same state with another queue. -/
theorem State.handOn_of_withQueue {u v : State} {q : List Instr} (h : u = v.withQueue q) (ts : List Chore) :
    u.handOn ts = (v.handOn ts).withQueue q :=
  op_withQueue (·.handOn ts) (fun s => s.handOn_withQueue q ts) h

/-! ### Frames, resets, mailboxes -/

theorem queueBlind_fetch (p : PortId) (crcGood : Bool) (clocked : Nat) : QueueBlind (.fetch p crcGood clocked) := by
  refine .of_next (fun _ => rfl) fun s q => ?_
  simp only [State.port_withQueue, State.frameCounts_withQueue, State.poll_withQueue, State.endFrame_withQueue,
    State.modifyPort_withQueue, State.dropFrame_withQueue, State.withQueue_ite]

theorem queueBlind_status (p : PortId) : QueueBlind (.status p) :=
  .of_request (fun _ => rfl) fun s q => by rw [State.statusItems_withQueue]; rfl

theorem queueBlind_badFrame (p : PortId) (flaw : FrameFlaw) : QueueBlind (.badFrame p flaw) := by
  refine .of_request (fun _ => rfl) fun s q => ?_
  cases losesBlock p flaw <;> rfl

theorem queueBlind_setAttention (p : PortId) (mask : Word) (term : Byte) : QueueBlind (.setAttention p mask term) := by
  refine .of_request (fun _ => rfl) fun s q => ?_
  cases termOf term <;> rfl

theorem queueBlind_portReset (p : PortId) : QueueBlind (.portReset p) := by
  refine .of_next (fun _ => rfl) fun s q => s.requestAnyState_withQueue q p _ fun v => ?_
  cases p with
  | plan => rfl
  | scan => exact (v.resetPort .scan).resetScan_withQueue q
  | spindle n => exact (v.resetPort (.spindle n)).resetSpindle_withQueue q n

theorem queueBlind_warmReset : QueueBlind .warmReset :=
  .of_next (fun _ => rfl) fun s q => s.requestAnyState_withQueue q .plan _ fun _ => rfl

theorem queueBlind_postOrder (spindle : Byte) (content : BitVec 64) : QueueBlind (.postOrder spindle content) := by
  refine .of_request (fun _ => rfl) fun s q => ?_
  cases spindleOf spindle with
  | none => rfl
  | some n => exact State.ite_withQueue Iff.rfl rfl rfl

theorem queueBlind_readNote (spindle : Byte) : QueueBlind (.readNote spindle) := by
  refine .of_request (fun _ => rfl) fun s q => ?_
  cases spindleOf spindle <;> rfl

/-! ### The relief and its tiles -/

theorem queueBlind_openTile (tx ty : Byte) : QueueBlind (.openTile tx ty) := by
  refine .of_request (fun _ => rfl) fun s q => State.ite_withQueue Iff.rfl rfl ?_
  simp only [State.withQueue_relief, State.freeSlot_withQueue]
  split
  · rfl
  · split
    · rfl
    · rfl
    · split <;> rfl
    · split
      · rfl
      · exact State.ite_withQueue Iff.rfl rfl rfl

theorem queueBlind_rescanPreloadCompletion : QueueBlind .rescanPreloadCompletion := by
  refine .of_next (fun _ => rfl) fun s q => ?_
  simp only [State.preloadingSlot_withQueue, State.withQueue_relief]
  split
  · rfl
  · split <;> rfl

theorem queueBlind_putSamples (tx ty : Byte) (offset : Word) (samples : List Word) :
    QueueBlind (.putSamples tx ty offset samples) := by
  refine .of_request (fun _ => rfl) fun s q => ?_
  rw [State.findSlot_withQueue]
  split
  · rfl
  · exact State.ite_withQueue Iff.rfl rfl rfl

theorem queueBlind_viewStaging (tx ty : Byte) (offset : Word) (count : Byte) :
    QueueBlind (.viewStaging tx ty offset count) := by
  refine .of_request (fun _ => rfl) fun s q => ?_
  rw [State.findSlot_withQueue]
  split
  · rfl
  · exact State.ite_withQueue Iff.rfl rfl rfl

theorem queueBlind_sealTile (tx ty : Byte) (crc : Word) : QueueBlind (.sealTile tx ty crc) := by
  refine .of_request (fun _ => rfl) fun s q => ?_
  rw [State.findSlot_withQueue]
  split
  · rfl
  · exact State.ite_withQueue Iff.rfl rfl (State.ite_withQueue Iff.rfl rfl rfl)

theorem queueBlind_sealCompletion : QueueBlind .sealCompletion := by
  refine .of_next (fun _ => rfl) fun s q => ?_
  simp only [State.sealingSlot_withQueue, State.withQueue_relief]
  split
  · rfl
  · split
    · rfl
    · simp

theorem queueBlind_dropTile (tx ty : Byte) : QueueBlind (.dropTile tx ty) := by
  refine .of_request (fun _ => rfl) fun s q => ?_
  rw [State.findSlot_withQueue]
  split
  · rfl
  · rw [State.freeStaging_withQueue]
    rfl

theorem queueBlind_defineRelief (mw mh : Word) : QueueBlind (.defineRelief mw mh) :=
  .of_request (fun _ => rfl) fun _ _ => State.ite_withQueue Iff.rfl rfl (State.ite_withQueue Iff.rfl rfl rfl)

theorem queueBlind_readRelief (iy ix0 : Word) (count : Byte) : QueueBlind (.readRelief iy ix0 count) :=
  .of_request (fun _ => rfl) fun _ _ => State.ite_withQueue Iff.rfl rfl (State.ite_withQueue Iff.rfl rfl rfl)

/-! ### Copies and plans -/

theorem queueBlind_defineCopy (args : CopyArgs) : QueueBlind (.defineCopy args) :=
  .of_onCopy (fun _ => rfl) fun _ _ _ => State.ite_withQueue Iff.rfl rfl <| State.ite_withQueue Iff.rfl rfl <|
    State.ite_withQueue Iff.rfl rfl <| State.ite_withQueue Iff.rfl rfl rfl

theorem queueBlind_setPass (slot kind : Byte) (stepDown allowance : Word) :
    QueueBlind (.setPass slot kind stepDown allowance) := by
  refine .of_onCopy (fun _ => rfl) fun k s q => State.ite_withQueue Iff.rfl rfl ?_
  cases kindOf kind with
  | none => rfl
  | some kd =>
    exact State.ite_withQueue Iff.rfl
      (State.op_withQueue (·.withdrawAll k) (fun s => s.withdrawAll_withQueue q k) rfl) rfl

theorem queueBlind_resumeCopy (slot : Byte) : QueueBlind (.resumeCopy slot) := by
  refine .of_onCopy (fun _ => rfl) fun k s q =>
    State.ite_withQueue Iff.rfl rfl (State.ite_withQueue Iff.rfl rfl ?_)
  exact State.handOn_of_withQueue (by rfl) _

theorem queueBlind_closeCopy (slot : Byte) : QueueBlind (.closeCopy slot) := by
  refine .of_onCopy (fun _ => rfl) fun k s q => State.ite_withQueue Iff.rfl rfl <| State.ite_withQueue Iff.rfl rfl ?_
  rw [State.freeCopy_withQueue]
  exact State.ite_withQueue Iff.rfl (State.op_withQueue State.grantTest (fun s => s.grantTest_withQueue q) rfl) rfl

theorem queueBlind_bindSpindle (spindle slot : Byte) : QueueBlind (.bindSpindle spindle slot) := by
  refine .of_request (fun _ => rfl) fun s q => ?_
  cases spindleOf spindle with
  | none => rfl
  | some n =>
    cases slotOf slot with
    | none => rfl
    | some k => exact State.ite_withQueue Iff.rfl rfl (State.ite_withQueue Iff.rfl rfl rfl)

theorem queueBlind_unbindSpindle (spindle : Byte) : QueueBlind (.unbindSpindle spindle) := by
  refine .of_request (fun _ => rfl) fun s q => ?_
  cases spindleOf spindle with
  | none => rfl
  | some n =>
    simp only [State.fenceForUnbind_withQueue]
    rfl

theorem queueBlind_readCopy (slot zero : Byte) : QueueBlind (.readCopy slot zero) := by
  refine .of_onCopy (fun _ => rfl) fun k s q => ?_
  by_cases h : flagOf zero = true ∧ (s.copy k).state ≠ .free
  · simp [h]
  · simp [h]

theorem queueBlind_loadPlan (slot : Byte) (ds : List Descriptor) : QueueBlind (.loadPlan slot ds) := by
  refine .of_next (fun _ => rfl) fun s q => State.ite_withQueue Iff.rfl ?_ ?_
  · exact s.request_withQueue q .plan _ fun _ => rfl
  · exact s.onCopy_withQueue q slot _ fun k v => State.ite_withQueue Iff.rfl rfl <| State.ite_withQueue Iff.rfl rfl <|
      State.ite_withQueue Iff.rfl rfl
        (State.op_withQueue (·.afterLoad k _ _) (fun s => s.afterLoad_withQueue q k _ _) rfl)

theorem queueBlind_readStrip (slot selector : Byte) (value : Word) : QueueBlind (.readStrip slot selector value) := by
  refine .of_onCopy (fun _ => rfl) fun k s q => ?_
  cases selectorOf selector with
  | none => rfl
  | some sel =>
    refine State.ite_withQueue Iff.rfl rfl (State.ite_withQueue Iff.rfl rfl ?_)
    simp only [State.copy_withQueue]
    split <;> rfl

/-! ### Issue, engine and queues -/

theorem queueBlind_takeStrip (n : SpindleId) : QueueBlind (.takeStrip n) := by
  refine .of_request (fun _ => rfl) fun s q => ?_
  simp only [State.spindle_withQueue, State.copy_withQueue]
  split
  · rfl
  · split
    · rfl
    · exact State.ite_withQueue Iff.rfl rfl (State.ite_withQueue Iff.rfl rfl (State.takeFrom_withQueue s q n _))
    all_goals rfl

theorem queueBlind_computeCell : QueueBlind .computeCell := by
  refine .of_next (fun _ => rfl) fun s q => ?_
  simp only [State.withQueue_engine, State.strip?_withQueue]
  split
  · rfl
  · split
    · rfl
    · rw [State.placeCell_withQueue]
      exact State.ite_withQueue Iff.rfl (State.completeComputation_withQueue _ q _) rfl

theorem queueBlind_drawTargets (n : SpindleId) (count : Byte) : QueueBlind (.drawTargets n count) := by
  refine .of_request (fun _ => rfl) fun s q =>
    State.ite_withQueue Iff.rfl rfl (State.ite_withQueue Iff.rfl rfl ?_)
  exact State.handOn_of_withQueue (by rfl) _

theorem queueBlind_rewindStrip (n : SpindleId) : QueueBlind (.rewindStrip n) := by
  refine .of_request (fun _ => rfl) fun s q => ?_
  simp only [State.spindle_withQueue]
  split
  · rfl
  · exact State.ite_withQueue Iff.rfl rfl rfl

/-! ### Fences, holds, cut reports -/

theorem queueBlind_releaseFence (slot : Byte) (index : Word) (action : Byte) :
    QueueBlind (.releaseFence slot index action) := by
  refine .of_request (fun _ => rfl) fun s q => ?_
  cases slotOf slot with
  | none => rfl
  | some k =>
    cases actionOf action with
    | none => rfl
    | some act =>
      refine State.ite_withQueue Iff.rfl rfl (State.ite_withQueue Iff.rfl rfl ?_)
      simp only [State.copy_withQueue]
      split
      · rfl
      · exact State.ite_withQueue Iff.rfl rfl <|
          State.ite_withQueue Iff.rfl rfl (State.releaseStrip_withQueue s q k _ act)

theorem queueBlind_holdSpindle (spindle : Byte) (time : Word) : QueueBlind (.holdSpindle spindle time) := by
  refine .of_request (fun _ => rfl) fun s q => ?_
  cases spindleOf spindle with
  | none => rfl
  | some n =>
    refine State.ite_withQueue Iff.rfl rfl (State.ite_withQueue Iff.rfl ?_ rfl)
    exact State.handOn_of_withQueue (by rfl) _

theorem queueBlind_reportCut (n : SpindleId) (slot : Byte) (index : Word) (issue : Byte) (floors : List Depth) :
    QueueBlind (.reportCut n slot index issue floors) := by
  refine .of_request (fun _ => rfl) fun s q => ?_
  simp only [State.spindle_withQueue]
  split
  · rfl
  · exact s.decideReport_withQueue q n _

theorem queueBlind_mergeCell (n : SpindleId) : QueueBlind (.mergeCell n) := by
  refine .of_next (fun _ => rfl) fun s q => ?_
  simp only [State.spindle_withQueue, State.mergeOne_withQueue]
  split
  · rfl
  · split
    · rfl
    · split
      · exact State.ite_withQueue Iff.rfl (State.completeMerge_withQueue _ q n _) rfl
      · rfl

/-- No command looks at the queue of waiting commands or changes it. -/
theorem queueBlind (i : Instr) : QueueBlind i := by
  cases i with
  | fetch p crcGood clocked => exact queueBlind_fetch p crcGood clocked
  | statusPoll p phase => exact .of_next (fun _ => rfl) fun s q => s.poll_withQueue q p phase
  | status p => exact queueBlind_status p
  | badFrame p flaw => exact queueBlind_badFrame p flaw
  | clearEvents p mask => exact .of_request (fun _ => rfl) fun _ _ => rfl
  | setAttention p mask term => exact queueBlind_setAttention p mask term
  | portReset p => exact queueBlind_portReset p
  | warmReset => exact queueBlind_warmReset
  | powerOn resetHigh => exact .of_next (fun _ => rfl) fun _ _ => State.ite_withQueue Iff.rfl rfl rfl
  | resetPin periods => exact .of_next (fun _ => rfl) fun _ _ => State.ite_withQueue Iff.rfl rfl rfl
  | resetRelease => exact .of_next (fun _ => rfl) fun _ _ => State.ite_withQueue Iff.rfl rfl rfl
  | millisecondTick n =>
    exact .of_next (fun _ => rfl) fun s q =>
      State.ite_withQueue Iff.rfl (s.holdTick_withQueue q n) (s.leaseTick_withQueue q n)
  | leaseExpiry n =>
    exact .of_next (fun _ => rfl) fun s q => State.ite_withQueue Iff.rfl (s.leaseTick_withQueue q n) rfl
  | holdCountdownEnd n =>
    exact .of_next (fun _ => rfl) fun s q => State.ite_withQueue Iff.rfl (s.holdTick_withQueue q n) rfl
  | openTile tx ty => exact queueBlind_openTile tx ty
  | rescanPreloadCompletion => exact queueBlind_rescanPreloadCompletion
  | putSamples tx ty offset samples => exact queueBlind_putSamples tx ty offset samples
  | viewStaging tx ty offset count => exact queueBlind_viewStaging tx ty offset count
  | sealTile tx ty crc => exact queueBlind_sealTile tx ty crc
  | sealCompletion => exact queueBlind_sealCompletion
  | dropTile tx ty => exact queueBlind_dropTile tx ty
  | defineRelief mw mh => exact queueBlind_defineRelief mw mh
  | readRelief iy ix0 count => exact queueBlind_readRelief iy ix0 count
  | defineCopy args => exact queueBlind_defineCopy args
  | clearCompletion slot => exact .of_next (fun _ => rfl) fun _ _ => State.ite_withQueue Iff.rfl rfl rfl
  | setPass slot kind stepDown allowance => exact queueBlind_setPass slot kind stepDown allowance
  | startPass slot =>
    exact .of_onCopy (fun _ => rfl) fun _ _ _ => State.ite_withQueue Iff.rfl rfl (State.ite_withQueue Iff.rfl rfl rfl)
  | pauseCopy slot => exact .of_onCopy (fun _ => rfl) fun _ _ _ => State.ite_withQueue Iff.rfl rfl rfl
  | resumeCopy slot => exact queueBlind_resumeCopy slot
  | closeCopy slot => exact queueBlind_closeCopy slot
  | bindSpindle spindle slot => exact queueBlind_bindSpindle spindle slot
  | unbindSpindle spindle => exact queueBlind_unbindSpindle spindle
  | readFloors slot cy c0 count =>
    exact .of_onCopy (fun _ => rfl) fun _ _ _ => State.ite_withQueue Iff.rfl rfl (State.ite_withQueue Iff.rfl rfl rfl)
  | readCopy slot zero => exact queueBlind_readCopy slot zero
  | loadPlan slot ds => exact queueBlind_loadPlan slot ds
  | clearPlan slot => exact .of_onCopy (fun _ => rfl) fun _ _ _ => State.ite_withQueue Iff.rfl rfl rfl
  | readStrip slot selector value => exact queueBlind_readStrip slot selector value
  | takeStrip n => exact queueBlind_takeStrip n
  | setPrefetch n threshold => exact .of_request (fun _ => rfl) fun _ _ => State.handOn_of_withQueue (by rfl) _
  | computeCell => exact queueBlind_computeCell
  | drawTargets n count => exact queueBlind_drawTargets n count
  | rewindStrip n => exact queueBlind_rewindStrip n
  | renew n => exact .of_request (fun _ => rfl) fun _ _ => rfl
  | releaseFence slot index action => exact queueBlind_releaseFence slot index action
  | holdSpindle spindle time => exact queueBlind_holdSpindle spindle time
  | reportCut n slot index issue floors => exact queueBlind_reportCut n slot index issue floors
  | mergeCell n => exact queueBlind_mergeCell n
  | postOrder spindle content => exact queueBlind_postOrder spindle content
  | postNote n content => exact .of_request (fun _ => rfl) fun _ _ => State.ite_withQueue Iff.rfl rfl rfl
  | readOrder n => exact .of_request (fun _ => rfl) fun _ _ => rfl
  | readNote spindle => exact queueBlind_readNote spindle

/-- Settles O2: what a command leaves with the queue it finds, put back, is what it leaves. -/
theorem queueUntouched : Obligations.QueueUntouched := by
  intro c s t h
  have blind (q : List Instr) : exec c (s.withQueue q) = .next (t.withQueue q) := by
    obtain ⟨u, hu, hq⟩ := queueBlind c s q
    obtain rfl : u = t := by simpa using hu.symm.trans h
    exact hq
  have same : t = t.withQueue s.pending := by simpa using h.symm.trans (show exec c s = _ from blind s.pending)
  exact ⟨(congrArg State.pending same :), blind⟩

end Sys2Proof.Machine

namespace Sys2Proof.Machine

/-! ## What a frame leaves of the other ports (R154, R155, R163, R170) -/

/-- Port y is port x but for latches set beside those that were set, and for the line. -/
structure Port.OnlyLatched (x y : Port) : Prop where
  state : y.state = x.state
  slot : y.slot = x.slot
  delivered : y.delivered = x.delivered
  mask : y.mask = x.mask
  term : y.term = x.term
  frame : y.frame = x.frame
  out : y.out = x.out
  latches : x.latches &&& y.latches = x.latches

theorem Port.OnlyLatched.refl (x : Port) : x.OnlyLatched x := ⟨rfl, rfl, rfl, rfl, rfl, rfl, rfl, BitVec.and_self⟩

theorem Port.OnlyLatched.trans {x y z : Port} (h1 : x.OnlyLatched y) (h2 : y.OnlyLatched z) : x.OnlyLatched z where
  state := h2.state.trans h1.state
  slot := h2.slot.trans h1.slot
  delivered := h2.delivered.trans h1.delivered
  mask := h2.mask.trans h1.mask
  term := h2.term.trans h1.term
  frame := h2.frame.trans h1.frame
  out := h2.out.trans h1.out
  latches := by rw [← h1.latches, BitVec.and_assoc, h2.latches]

theorem Port.OnlyLatched.setLatch (inReset : Bool) (bit : Nat) (x : Port) :
    x.OnlyLatched (Machine.setLatch inReset bit x) := by
  refine ⟨rfl, rfl, rfl, rfl, rfl, rfl, rfl, BitVec.eq_of_getLsbD_eq fun i _ => ?_⟩
  simpa [Machine.setLatch, refreshLine] using Or.inl

/-- Every port but p has at most latches set. -/
def OthersLatched (p : PortId) (s t : State) : Prop := ∀ q, q ≠ p → (s.port q).OnlyLatched (t.port q)

section
variable {p : PortId} {s t u : State}

theorem OthersLatched.refl (s : State) : OthersLatched p s s := fun _ _ => .refl _

theorem OthersLatched.trans (h1 : OthersLatched p s t) (h2 : OthersLatched p t u) : OthersLatched p s u :=
  fun q hq => (h1 q hq).trans (h2 q hq)

theorem OthersLatched.same (h : OthersLatched p s t) (hp : u.ports = t.ports) : OthersLatched p s u := by
  intro q hq
  have hq' : u.port q = t.port q := congrArg (Ports.get · q) hp
  rw [hq']
  exact h q hq

/-- The port of the frame itself may change in any way. -/
theorem OthersLatched.modifyPort (h : OthersLatched p s t) (f : Port → Port) :
    OthersLatched p s (t.modifyPort p f) := by
  intro q hq
  rw [State.modifyPort_port_ne _ _ _ _ hq]
  exact h q hq

theorem OthersLatched.answer (h : OthersLatched p s t) (c : AnswerCode) (d : List Byte) :
    OthersLatched p s (t.answer p c d) := h.modifyPort _

theorem OthersLatched.answered (s : State) (c : AnswerCode) (d : List Byte) : OthersLatched p s (s.answer p c d) :=
  (OthersLatched.refl s).answer c d

theorem OthersLatched.raise (h : OthersLatched p s t) (q : PortId) (bit : Nat) : OthersLatched p s (t.raise q bit) := by
  refine h.trans fun r _ => ?_
  by_cases hr : r = q
  · rw [hr, State.raise_port_same]
    exact .setLatch _ _ _
  · rw [State.raise_port_ne _ _ _ _ hr]
    exact .refl _

theorem OthersLatched.latchPlan (h : OthersLatched p s t) (l : PlanLatch) : OthersLatched p s (t.latchPlan l) :=
  h.raise _ _

theorem OthersLatched.latchScan (h : OthersLatched p s t) (l : ScanLatch) : OthersLatched p s (t.latchScan l) :=
  h.raise _ _

theorem OthersLatched.latchSpindle (h : OthersLatched p s t) (n : SpindleId) (l : SpindleLatch) :
    OthersLatched p s (t.latchSpindle n l) := h.raise _ _

theorem OthersLatched.foldl {α : Type} (h : OthersLatched p s t) (f : State → α → State)
    (hf : ∀ s a, OthersLatched p s (f s a)) (l : List α) : OthersLatched p s (l.foldl f t) := by
  induction l generalizing t with
  | nil => exact h
  | cons a l ih => exact ih (h.trans (hf t a))

/-- Hand-on work answers no request but a report that waits. -/
theorem State.handOn_ports (s : State) {ts : List Chore} (h : ∀ n, .report n ∉ ts) : (s.handOn ts).ports = s.ports := by
  refine Ports.ext_get fun q => ?_
  cases q with
  | plan => exact (WorkKeeps.handOn s ts).plan
  | scan => exact (WorkKeeps.handOn s ts).scan
  | spindle n => exact (ReportUntouched.handOn s (h n)).port

theorem OthersLatched.handOn (h : OthersLatched p s t) {ts : List Chore} (hts : ∀ n, .report n ∉ ts) :
    OthersLatched p s (t.handOn ts) := h.same (t.handOn_ports hts)

theorem OthersLatched.handOn_evaluations (h : OthersLatched p s t) (ns : List SpindleId) :
    OthersLatched p s (t.handOn (ns.map Chore.evaluate)) := h.handOn fun n => by simp

theorem OthersLatched.completePass (h : OthersLatched p s t) (k : CopySlot) : OthersLatched p s (t.completePass k) :=
  h.trans ((OthersLatched.same (.refl t) rfl).latchPlan _)

theorem OthersLatched.testPass (h : OthersLatched p s t) (k : CopySlot) : OthersLatched p s (t.testPass k) := by
  unfold State.testPass
  dsimp only
  split
  · exact h.completePass k
  · exact h

end

/-! ### What the shared operations of requests leave of the other ports -/

theorem State.freeStaging_ports (s : State) (i : Fin 4) : (s.freeStaging i).ports = s.ports := by
  unfold freeStaging
  split <;> rfl

theorem OthersLatched.setHold (p : PortId) (s : State) (n : SpindleId) (time : Nat) (o : HoldOrigin) :
    OthersLatched p s (s.setHold n time o) := (OthersLatched.same (.refl s) rfl).latchSpindle n _

theorem OthersLatched.endHold (p : PortId) (s : State) (n : SpindleId) : OthersLatched p s (s.endHold n) :=
  (OthersLatched.same (.refl s) rfl).latchSpindle n _

theorem OthersLatched.withdrawAll (p : PortId) (s : State) (k : CopySlot) : OthersLatched p s (s.withdrawAll k) := by
  unfold State.withdrawAll
  dsimp only
  split
  · exact .refl s
  · have hleft : ∀ v t, OthersLatched p v (State.withdraw v k t) := by
      intro v t
      unfold State.withdraw
      split
      · exact ((OthersLatched.refl v).same (v.leave_ports k t true)).latchSpindle _ _
      · exact .refl v
    have hstart : OthersLatched p s { s with choices := s.choices + 1 } := (OthersLatched.refl s).same rfl
    refine (hstart.foldl _ hleft _).handOn fun n hn => ?_
    simp [State.leavingChores] at hn

theorem State.leaveAll_ports (s : State) (k : CopySlot) (l : List Strip) : (s.leaveAll k l).ports = s.ports :=
  leaveAll_keeps State.ports (fun v t => v.leave_ports k t false) s l

theorem OthersLatched.fenceForUnbind (p : PortId) (s : State) (n : SpindleId) :
    OthersLatched p s (s.fenceForUnbind n) := by
  unfold State.fenceForUnbind
  dsimp only
  split
  · exact .refl s
  · exact (OthersLatched.same (.refl s) rfl).latchSpindle n _ |>.latchPlan _

theorem OthersLatched.releaseStrip (s : State) (k : CopySlot) (t : Strip) (act : FenceAction) :
    OthersLatched .plan s (s.releaseStrip k t act) := by
  have hleft : OthersLatched .plan s (s.leaveAndGrant k t) := (OthersLatched.refl s).same (s.leaveAndGrant_ports k t)
  cases act with
  | requeue => exact ((hleft.same (u := s.requeueFenced k t) rfl).answer _ _).handOn_evaluations _
  | discard =>
    have hremoved := hleft.same (u := (s.leaveAndGrant k t).modifyCopy k fun c => c.removeStrip t.index) rfl
    exact ((hremoved.testPass k).answer _ _).handOn_evaluations _

theorem OthersLatched.takeFrom (s : State) (n : SpindleId) (k : CopySlot) :
    OthersLatched (.spindle n) s (s.takeFrom n k) := by
  unfold State.takeFrom
  split
  · exact (OthersLatched.answered s _ _).same (State.issue_ports _ n k _)
  · unfold State.noStrip
    split
    · exact .answered s _ _
    · split
      · exact .answered s _ _
      · split
        · exact .answered s _ _
        · next key _ =>
          have hwanted : OthersLatched (.spindle n) s (s.offerWanted key) := by
            unfold State.offerWanted
            split
            · exact .refl s
            · exact (OthersLatched.same (.refl s) rfl).latchScan _
          refine .answer (hwanted.trans ?_) _ _
          unfold State.scanHold
          split
          · exact .refl _
          · exact .setHold _ _ n _ _

theorem OthersLatched.decideReport (s : State) (n : SpindleId) (r : Report) :
    OthersLatched (.spindle n) s (s.decideReport n r) := by
  unfold State.decideReport
  split
  · exact .answered s _ _
  · exact .answered s _ _
  · split
    · exact .refl s
    · exact (OthersLatched.refl s).same rfl
  · exact (OthersLatched.refl s).same rfl

theorem OthersLatched.afterLoad (s : State) (k : CopySlot) (accepted : Nat) (closed : Bool) :
    OthersLatched .plan s (s.afterLoad k accepted closed) := by
  have hclosed : OthersLatched .plan s (if closed then s.testPass k else s) := by
    split
    · exact (OthersLatched.refl s).testPass k
    · exact .refl s
  unfold State.afterLoad
  dsimp only
  split
  · split
    · exact hclosed.handOn_evaluations _
    · exact hclosed
  · exact .refl s

/-! ## Ordinary requests (R156, R158) -/

/-- A request on the port of the command, taken or refused as `State.request` says, whose own rule leaves at most
latches on the other ports. -/
def IsRequest (i : Instr) : Prop :=
  ∃ f : State → State, (∀ s, exec i s = .next (s.request (requestPort i) f)) ∧
    ∀ v, OthersLatched (requestPort i) v (f v)

section
variable {i : Instr}

theorem IsRequest.of_onCopy {b : Byte} {f : CopySlot → State → State} (hi : requestPort i = .plan)
    (he : ∀ s, exec i s = .next (s.onCopy b f)) (hf : ∀ k v, OthersLatched .plan v (f k v)) : IsRequest i := by
  refine ⟨fun v => match slotOf b with
    | none => v.answer .plan .badArg []
    | some k => f k v, fun s => ?_, fun v => ?_⟩
  · rw [hi, he]
    rfl
  · rw [hi]
    split
    · exact .answered v _ _
    · exact hf _ v

end

/-! ### Frames and mailboxes -/

theorem isRequest_badFrame (p : PortId) (flaw : FrameFlaw) : IsRequest (.badFrame p flaw) := by
  refine ⟨_, fun _ => rfl, fun v => .answer ?_ _ _⟩
  split
  · exact (OthersLatched.refl v).latchScan _
  · exact .refl v

theorem isRequest_setAttention (p : PortId) (mask : Word) (term : Byte) : IsRequest (.setAttention p mask term) := by
  refine ⟨_, fun _ => rfl, fun v => ?_⟩
  split
  · exact .answered v _ _
  · exact ((OthersLatched.refl v).modifyPort _).answer _ _

theorem isRequest_postOrder (spindle : Byte) (content : BitVec 64) : IsRequest (.postOrder spindle content) := by
  refine ⟨_, fun _ => rfl, fun v => ?_⟩
  split
  · exact .answered v _ _
  · split
    · exact .answered v _ _
    · exact ((OthersLatched.same (.refl v) rfl).latchSpindle _ _).answer _ _

theorem isRequest_postNote (n : SpindleId) (content : BitVec 64) : IsRequest (.postNote n content) := by
  refine ⟨_, fun _ => rfl, fun v => ?_⟩
  split
  · exact .answered v _ _
  · exact ((OthersLatched.same (.refl v) rfl).latchPlan _).answer _ _

theorem isRequest_readNote (spindle : Byte) : IsRequest (.readNote spindle) := by
  refine ⟨_, fun _ => rfl, fun v => ?_⟩
  split
  · exact .answered v _ _
  · exact (OthersLatched.same (.refl v) rfl).answer _ _

/-! ### The relief and its tiles -/

theorem isRequest_openTile (tx ty : Byte) : IsRequest (.openTile tx ty) := by
  refine ⟨_, fun _ => rfl, fun v => ?_⟩
  have hclaim (i : Fin 4) (key : TileKey) (mode : SlotMode) (st : TileState) :
      OthersLatched .scan v (v.claim i key mode st) := (OthersLatched.refl v).same rfl
  dsimp only
  split
  · exact .answered v _ _
  · split
    · exact .answered v _ _
    · split
      · exact .answered v _ _
      · exact .answered v _ _
      · split
        · exact .answered v _ _
        · exact (hclaim _ _ _ _).answer _ _
      · split
        · exact .answered v _ _
        · split
          · exact .answered v _ _
          · exact hclaim _ _ _ _

theorem isRequest_putSamples (tx ty : Byte) (offset : Word) (samples : List Word) :
    IsRequest (.putSamples tx ty offset samples) := by
  refine ⟨_, fun _ => rfl, fun v => ?_⟩
  split
  · exact .answered v _ _
  · split
    · exact .answered v _ _
    · exact (OthersLatched.same (.refl v) rfl).answer _ _

theorem isRequest_viewStaging (tx ty : Byte) (offset : Word) (count : Byte) :
    IsRequest (.viewStaging tx ty offset count) := by
  refine ⟨_, fun _ => rfl, fun v => ?_⟩
  split
  · exact .answered v _ _
  · split <;> exact .answered v _ _

theorem isRequest_sealTile (tx ty : Byte) (crc : Word) : IsRequest (.sealTile tx ty crc) := by
  refine ⟨_, fun _ => rfl, fun v => ?_⟩
  split
  · exact .answered v _ _
  · dsimp only
    split
    · exact .answered v _ _
    · split
      · exact .answered v _ _
      · exact (OthersLatched.refl v).same rfl

theorem isRequest_dropTile (tx ty : Byte) : IsRequest (.dropTile tx ty) := by
  refine ⟨_, fun _ => rfl, fun v => ?_⟩
  split
  · exact .answered v _ _
  · exact ((OthersLatched.refl v).same (v.freeStaging_ports _)).answer _ _

theorem isRequest_defineRelief (mw mh : Word) : IsRequest (.defineRelief mw mh) := by
  refine ⟨_, fun _ => rfl, fun v => ?_⟩
  split
  · exact .answered v _ _
  · split
    · exact .answered v _ _
    · exact (OthersLatched.same (.refl v) rfl).answer _ _

theorem isRequest_readRelief (iy ix0 : Word) (count : Byte) : IsRequest (.readRelief iy ix0 count) := by
  refine ⟨_, fun _ => rfl, fun v => ?_⟩
  dsimp only
  split
  · exact .answered v _ _
  · split <;> exact .answered v _ _

/-! ### Copies -/

theorem isRequest_defineCopy (args : CopyArgs) : IsRequest (.defineCopy args) := by
  refine .of_onCopy rfl (fun _ => rfl) fun k v => ?_
  split
  · exact .answered v _ _
  · split
    · exact .answered v _ _
    · split
      · exact .answered v _ _
      · split
        · exact .answered v _ _
        · exact (OthersLatched.same (.refl v) rfl).answer _ _

theorem isRequest_setPass (slot kind : Byte) (stepDown allowance : Word) :
    IsRequest (.setPass slot kind stepDown allowance) := by
  refine .of_onCopy rfl (fun _ => rfl) fun k v => ?_
  dsimp only
  split
  · exact .answered v _ _
  · split
    · exact .answered v _ _
    · split
      · refine .trans (.answer ?_ _ _) (.withdrawAll _ _ k)
        exact (OthersLatched.refl v).same rfl
      · exact (OthersLatched.same (.refl v) rfl).answer _ _

theorem isRequest_startPass (slot : Byte) : IsRequest (.startPass slot) := by
  refine .of_onCopy rfl (fun _ => rfl) fun k v => ?_
  dsimp only
  split
  · exact .answered v _ _
  · split
    · exact .answered v _ _
    · exact (OthersLatched.same (.refl v) rfl).answer _ _

theorem isRequest_pauseCopy (slot : Byte) : IsRequest (.pauseCopy slot) := by
  refine .of_onCopy rfl (fun _ => rfl) fun k v => ?_
  split
  · exact .answered v _ _
  · exact (OthersLatched.same (.refl v) rfl).answer _ _

theorem isRequest_resumeCopy (slot : Byte) : IsRequest (.resumeCopy slot) := by
  refine .of_onCopy rfl (fun _ => rfl) fun k v => ?_
  dsimp only
  split
  · exact .answered v _ _
  · split
    · exact ((OthersLatched.refl v).completePass k).answer _ _
    · refine .handOn_evaluations (.answer ?_ _ _) _
      exact (OthersLatched.refl v).same rfl

theorem isRequest_closeCopy (slot : Byte) : IsRequest (.closeCopy slot) := by
  refine .of_onCopy rfl (fun _ => rfl) fun k v => ?_
  have hfreed : OthersLatched .plan v ((v.freeCopy k).answer .plan .ok []) :=
    ((OthersLatched.refl v).same (v.leaveAll_ports k _)).answer _ _
  dsimp only
  split
  · exact .answered v _ _
  · split
    · exact .answered v _ _
    · split
      · exact hfreed.same (State.grantTest_ports _)
      · exact hfreed

theorem isRequest_bindSpindle (spindle slot : Byte) : IsRequest (.bindSpindle spindle slot) := by
  refine ⟨_, fun _ => rfl, fun v => ?_⟩
  split
  · split
    · exact .answered v _ _
    · split
      · exact .answered v _ _
      · exact (OthersLatched.same (.refl v) rfl).answer _ _
  · exact .answered v _ _

theorem isRequest_unbindSpindle (spindle : Byte) : IsRequest (.unbindSpindle spindle) := by
  refine ⟨_, fun _ => rfl, fun v => ?_⟩
  split
  · exact .answered v _ _
  · next n _ => exact ((OthersLatched.fenceForUnbind .plan v n).same rfl).answer _ _

theorem isRequest_readFloors (slot : Byte) (cy c0 : Word) (count : Byte) :
    IsRequest (.readFloors slot cy c0 count) := by
  refine .of_onCopy rfl (fun _ => rfl) fun k v => ?_
  dsimp only
  split
  · exact .answered v _ _
  · split <;> exact .answered v _ _

theorem isRequest_readCopy (slot zero : Byte) : IsRequest (.readCopy slot zero) := by
  refine .of_onCopy rfl (fun _ => rfl) fun k v => .answer ?_ _ _
  split
  · exact (OthersLatched.refl v).same rfl
  · exact .refl v

/-! ### Plans -/

theorem isRequest_loadPlan (slot : Byte) (ds : List Descriptor) : IsRequest (.loadPlan slot ds) := by
  by_cases hd : ds.length < 1 ∨ 32 < ds.length
  · exact ⟨_, fun _ => congrArg Host.Outcome.next (if_pos hd), fun v => .answered v _ _⟩
  · refine .of_onCopy rfl (fun _ => congrArg Host.Outcome.next (if_neg hd)) fun k v => ?_
    dsimp only
    split
    · exact .answered v _ _
    · split
      · exact .answered v _ _
      · split
        · exact .answered v _ _
        · refine .trans (.answer ?_ _ _) (.afterLoad _ k _ _)
          exact (OthersLatched.refl v).same rfl

theorem isRequest_clearPlan (slot : Byte) : IsRequest (.clearPlan slot) := by
  refine .of_onCopy rfl (fun _ => rfl) fun k v => ?_
  dsimp only
  split
  · exact .answered v _ _
  · exact (OthersLatched.same (.refl v) rfl).answer _ _

theorem isRequest_readStrip (slot selector : Byte) (value : Word) : IsRequest (.readStrip slot selector value) := by
  refine .of_onCopy rfl (fun _ => rfl) fun k v => ?_
  split
  · exact .answered v _ _
  · dsimp only
    split
    · exact .answered v _ _
    · split
      · exact .answered v _ _
      · split <;> exact .answered v _ _

/-! ### Issue and target queues -/

theorem isRequest_takeStrip (n : SpindleId) : IsRequest (.takeStrip n) := by
  refine ⟨_, fun _ => rfl, fun v => ?_⟩
  dsimp only
  split
  · exact .answered v _ _
  · split
    · exact .answered v _ _
    · split
      · exact .answered v _ _
      · split
        · exact .answered v _ _
        · exact .takeFrom v n _
    · exact .answered v _ _
    · exact .answered v _ _
    · exact .answered v _ _

theorem isRequest_setPrefetch (n : SpindleId) (threshold : Word) : IsRequest (.setPrefetch n threshold) := by
  refine ⟨_, fun _ => rfl, fun v => .handOn_evaluations (.answer ?_ _ _) [n]⟩
  exact (OthersLatched.refl v).same rfl

theorem isRequest_drawTargets (n : SpindleId) (count : Byte) : IsRequest (.drawTargets n count) := by
  refine ⟨_, fun _ => rfl, fun v => ?_⟩
  dsimp only
  split
  · exact .answered v _ _
  · split
    · exact (OthersLatched.same (.refl v) rfl).answer _ _
    · refine .handOn_evaluations (.same (.answer ?_ _ _) (State.restartLeases_ports _ _)) [n]
      exact (OthersLatched.refl v).same rfl

theorem isRequest_rewindStrip (n : SpindleId) : IsRequest (.rewindStrip n) := by
  refine ⟨_, fun _ => rfl, fun v => ?_⟩
  split
  · exact .answered v _ _
  · split
    · exact (OthersLatched.same (.refl v) rfl).answer _ _
    · exact .answered v _ _

/-! ### Fences, holds, cut reports -/

theorem isRequest_releaseFence (slot : Byte) (index : Word) (action : Byte) :
    IsRequest (.releaseFence slot index action) := by
  refine ⟨_, fun _ => rfl, fun v => ?_⟩
  split
  · dsimp only
    split
    · exact .answered v _ _
    · split
      · exact .answered v _ _
      · split
        · exact .answered v _ _
        · split
          · exact .answered v _ _
          · split
            · exact .answered v _ _
            · exact .releaseStrip v _ _ _
  · exact .answered v _ _

theorem isRequest_holdSpindle (spindle : Byte) (time : Word) : IsRequest (.holdSpindle spindle time) := by
  refine ⟨_, fun _ => rfl, fun v => ?_⟩
  split
  · exact .answered v _ _
  · next n _ =>
    dsimp only
    split
    · exact (OthersLatched.setHold .plan v n _ _).answer _ _
    · split
      · exact ((OthersLatched.endHold .plan v n).answer _ _).handOn_evaluations [n]
      · exact .answered v _ _

theorem isRequest_reportCut (n : SpindleId) (slot : Byte) (index : Word) (issue : Byte) (floors : List Depth) :
    IsRequest (.reportCut n slot index issue floors) := by
  refine ⟨_, fun _ => rfl, fun v => ?_⟩
  dsimp only
  split
  · exact (OthersLatched.refl v).same rfl
  · exact .decideReport v n _

/-- Every command with a command code but FETCH, PORT RESET and WARM RESET, and every bad frame, is a request of its
port (R156, R169). -/
theorem isRequest_of_ordinary {i : Instr} (h : ordinaryRequest i = true) : IsRequest i := by
  cases i with
  | status p => exact ⟨_, fun _ => rfl, fun v => .answered v _ _⟩
  | badFrame p flaw => exact isRequest_badFrame p flaw
  | clearEvents p mask => exact ⟨_, fun _ => rfl, fun v => ((OthersLatched.refl v).modifyPort _).answer _ _⟩
  | setAttention p mask term => exact isRequest_setAttention p mask term
  | openTile tx ty => exact isRequest_openTile tx ty
  | putSamples tx ty offset samples => exact isRequest_putSamples tx ty offset samples
  | viewStaging tx ty offset count => exact isRequest_viewStaging tx ty offset count
  | sealTile tx ty crc => exact isRequest_sealTile tx ty crc
  | dropTile tx ty => exact isRequest_dropTile tx ty
  | defineRelief mw mh => exact isRequest_defineRelief mw mh
  | readRelief iy ix0 count => exact isRequest_readRelief iy ix0 count
  | defineCopy args => exact isRequest_defineCopy args
  | setPass slot kind stepDown allowance => exact isRequest_setPass slot kind stepDown allowance
  | startPass slot => exact isRequest_startPass slot
  | pauseCopy slot => exact isRequest_pauseCopy slot
  | resumeCopy slot => exact isRequest_resumeCopy slot
  | closeCopy slot => exact isRequest_closeCopy slot
  | bindSpindle spindle slot => exact isRequest_bindSpindle spindle slot
  | unbindSpindle spindle => exact isRequest_unbindSpindle spindle
  | readFloors slot cy c0 count => exact isRequest_readFloors slot cy c0 count
  | readCopy slot zero => exact isRequest_readCopy slot zero
  | loadPlan slot ds => exact isRequest_loadPlan slot ds
  | clearPlan slot => exact isRequest_clearPlan slot
  | readStrip slot selector value => exact isRequest_readStrip slot selector value
  | takeStrip n => exact isRequest_takeStrip n
  | setPrefetch n threshold => exact isRequest_setPrefetch n threshold
  | drawTargets n count => exact isRequest_drawTargets n count
  | rewindStrip n => exact isRequest_rewindStrip n
  | renew n => exact ⟨_, fun _ => rfl, fun v => (OthersLatched.same (.refl v) rfl).answer _ _⟩
  | releaseFence slot index action => exact isRequest_releaseFence slot index action
  | holdSpindle spindle time => exact isRequest_holdSpindle spindle time
  | reportCut n slot index issue floors => exact isRequest_reportCut n slot index issue floors
  | postOrder spindle content => exact isRequest_postOrder spindle content
  | postNote n content => exact isRequest_postNote n content
  | readOrder n => exact ⟨_, fun _ => rfl, fun v => (OthersLatched.same (.refl v) rfl).answer _ _⟩
  | readNote spindle => exact isRequest_readNote spindle
  | fetch | statusPoll | portReset | warmReset | powerOn | resetPin | resetRelease | millisecondTick | leaseExpiry
  | holdCountdownEnd | rescanPreloadCompletion | sealCompletion | clearCompletion | computeCell | mergeCell => cases h

/-- Settles O11: an ordinary request is refused as `State.request` refuses. -/
theorem refusedWhileWorking : Obligations.RefusedWhileWorking := by
  intro c s hc hcounts hworking
  obtain ⟨f, he, -⟩ := isRequest_of_ordinary hc
  have hshows : showsWorking (s.fallStatus (requestPort c)) = true := decide_eq_true hworking
  rw [he, State.request, if_pos hcounts, if_pos hshows]
  rfl

/-! ## The other frames -/

theorem OthersLatched.request (s : State) (p : PortId) {f : State → State} (hf : ∀ v, OthersLatched p v (f v)) :
    OthersLatched p s (s.request p f) := by
  unfold State.request
  split
  · split
    · exact (OthersLatched.refl s).modifyPort _
    · exact (((OthersLatched.refl s).modifyPort _).modifyPort _).trans (hf (s.take p))
  · exact (OthersLatched.refl s).modifyPort _

theorem OthersLatched.poll (s : State) (p : PortId) (phase : PollPhase) : OthersLatched p s (s.poll p phase) := by
  cases phase <;> unfold State.poll <;> dsimp only <;> split <;> exact (OthersLatched.refl s).modifyPort _

theorem OthersLatched.fetch {s t : State} {p : PortId} {crcGood : Bool} {clocked : Nat}
    (h : exec (.fetch p crcGood clocked) s = .next t) : OthersLatched p s t := by
  cases h
  split
  · exact .poll s p .whole
  · split
    · dsimp only
      split
      · exact ((OthersLatched.refl s).modifyPort _).modifyPort _
      · exact (OthersLatched.refl s).modifyPort _
    · exact (OthersLatched.refl s).modifyPort _

theorem OthersLatched.resetSpindle (p : PortId) (s : State) (n : SpindleId) : OthersLatched p s (s.resetSpindle n) := by
  unfold State.resetSpindle
  dsimp only
  refine OthersLatched.same ?_ (State.grantTest_ports _)
  split
  · exact (OthersLatched.refl s).same rfl
  · exact (OthersLatched.same (.refl s) rfl).latchPlan _

theorem OthersLatched.portReset {s t : State} {p : PortId} (h : exec (.portReset p) s = .next t) :
    OthersLatched p s t := by
  cases h
  unfold State.requestAnyState
  split
  · have hreset : OthersLatched p s ((s.endFrame p []).resetPort p) :=
      ((OthersLatched.refl s).modifyPort _).modifyPort _
    cases p with
    | plan => exact hreset
    | scan => exact hreset.foldl _ (fun v i => (OthersLatched.refl v).same (v.freeStaging_ports i)) _
    | spindle n => exact hreset.trans (.resetSpindle _ _ n)
  · exact (OthersLatched.refl s).modifyPort _

/-- A command with a command code is an ordinary request, a FETCH or a reset (R156, R169). -/
theorem ordinary_of_code {i : Instr} (h : (commandCode i).isSome = true) : ordinaryRequest i = true ∨
    (∃ p good clocked, i = .fetch p good clocked) ∨ (∃ p, i = .portReset p) ∨ i = .warmReset := by
  cases i with
  | fetch p good clocked => exact .inr (.inl ⟨p, good, clocked, rfl⟩)
  | portReset p => exact .inr (.inr (.inl ⟨p, rfl⟩))
  | warmReset => exact .inr (.inr (.inr rfl))
  | badFrame => exact .inl rfl
  | _ => exact .inl h

theorem OthersLatched.ordinary {c : Instr} {s t : State} (hc : ordinaryRequest c = true) (h : exec c s = .next t) :
    OthersLatched (requestPort c) s t := by
  obtain ⟨f, he, hf⟩ := isRequest_of_ordinary hc
  obtain rfl : s.request (requestPort c) f = t := by simpa using (he s).symm.trans h
  exact .request s _ hf

/-- Settles O12: an ordinary request by its own rule, and the frames that every port state takes one by one. -/
theorem portsIndependent : Obligations.PortsIndependent := by
  intro c s t hc hwarm h
  have hothers : OthersLatched (requestPort c) s t := by
    rcases hc with hcode | hc | ⟨p, phase, rfl⟩
    · obtain hc | ⟨p, good, clocked, rfl⟩ | ⟨p, rfl⟩ | rfl := ordinary_of_code hcode
      · exact .ordinary hc h
      · exact .fetch h
      · exact .portReset h
      · exact absurd rfl hwarm
    · exact .ordinary hc h
    · cases h
      exact .poll s p phase
  intro q hq
  obtain ⟨hstate, hslot, hdelivered, hmask, hterm, hframe, hout, hlatches⟩ := hothers q hq
  exact ⟨hstate, hslot, hdelivered, hmask, hterm, hframe, hout, hlatches⟩

end Sys2Proof.Machine

namespace Sys2Proof.Machine

/-! ## The status byte and the status poll (R154, R156, R161) -/

/-- The bits of a status byte (R161). -/
theorem statusByte_bits (x : Port) (hold : Bool) :
    let b := statusByte x hold
    b.extractLsb' 6 2 = portStateBits x.state ∧ b.getLsbD 5 = x.line ∧ b.getLsbD 4 = hold ∧
      b.getLsbD 3 = x.latches.getLsbD 0 ∧ b.getLsbD 2 = (x.slot.isSome && !x.delivered) ∧ b.extractLsb' 0 2 = 0#2 := by
  have bits (state : BitVec 2) (line hold seen waiting : Bool) :
      let b : Byte :=
        state ++ BitVec.ofBool line ++ BitVec.ofBool hold ++ BitVec.ofBool seen ++ BitVec.ofBool waiting ++ 0#2
      b.extractLsb' 6 2 = state ∧ b.getLsbD 5 = line ∧ b.getLsbD 4 = hold ∧ b.getLsbD 3 = seen ∧
        b.getLsbD 2 = waiting ∧ b.extractLsb' 0 2 = 0#2 := by
    decide +revert
  exact bits _ _ _ _ _

/-- A frame that counts ends as one that was not taken does, having clocked out its status byte. -/
theorem State.endFrame_nil (s : State) {p : PortId} (h : s.frameCounts p = true) : s.endFrame p [] = s.untaken p := by
  simp only [endFrame, untaken, h, if_true]

/-- A frame that does not count ends without having clocked anything out. -/
theorem State.dropFrame_eq_untaken (s : State) {p : PortId} (h : s.frameCounts p = false) :
    s.dropFrame p = s.untaken p := by
  simp only [dropFrame, untaken, h, Bool.false_eq_true, if_false]

theorem State.poll_whole (s : State) (p : PortId) : s.poll p .whole = s.untaken p := by
  show (if s.frameCounts p then s.endFrame p [] else s.dropFrame p) = _
  cases h : s.frameCounts p with
  | true => exact s.endFrame_nil h
  | false => exact s.dropFrame_eq_untaken h

theorem State.poll_begun (s : State) (p : PortId) : s.poll p .begun = s.modifyPort p fun x =>
    if s.frameCounts p then { x with frame := .open (s.fallStatus p), out := some ⟨s.fallStatus p, []⟩ }
    else { x with frame := .dead, out := if s.inReset then none else x.out } := by
  unfold poll
  cases s.frameCounts p <;> rfl

theorem State.fallStatus_of_none {s : State} {p : PortId} (h : (s.port p).frame = .none) :
    s.fallStatus p = s.statusOf p := by
  simp only [fallStatus, h]

theorem State.fallStatus_of_open {s : State} {p : PortId} {b : Byte} (h : (s.port p).frame = .open b) :
    s.fallStatus p = b := by
  simp only [fallStatus, h]

/-- Settles O6: both phases of a poll, and the bits of the status byte. -/
theorem statusPollAndByte : Obligations.StatusPollAndByte := by
  intro p s
  obtain ⟨hstate, hline, hhold, hseen, hwaiting, hzero⟩ := statusByte_bits (s.port p) (s.holdShown p)
  refine ⟨congrArg Host.Outcome.next (s.poll_whole p), congrArg Host.Outcome.next (s.poll_begun p),
    State.fallStatus_of_none, fun _ => State.fallStatus_of_open, hstate.trans ?_, hline, hhold.trans ?_, hseen,
    hwaiting, hzero⟩
  · cases (s.port p).state <;> rfl
  · cases p <;> rfl

/-! ## FETCH (R159, R160) -/

/-- The answer a FETCH delivers: the one held, where the port is ANSWERED and the FETCH is good (R159). -/
def heldAnswer (x : Port) (good : Bool) : Option Envelope :=
  if good = true ∧ x.state = .answered then x.slot else none

theorem fetchEnvelope_eq (x : Port) (good : Bool) : fetchEnvelope x good = match heldAnswer x good with
    | some e => e
    | none => ⟨if good then (if x.state = .working then .pending else .none) else .badCrc, []⟩ := by
  unfold fetchEnvelope heldAnswer
  cases good with
  | false => rfl
  | true => cases hs : x.state <;> cases hx : x.slot <;> simp

theorem deliversAnswer_eq (x : Port) (good : Bool) : deliversAnswer x good = (heldAnswer x good).isSome := by
  unfold deliversAnswer heldAnswer
  cases good <;> by_cases hs : x.state = .answered <;> simp [hs]

/-- The slot settled at the rise of a FETCH (R160), on a port whose frame has ended. -/
theorem State.setPort_settleFetch (s : State) (p : PortId) (x : Port) (size clocked : Nat) :
    (s.setPort p x).modifyPort p (settleFetch size clocked) =
      if 3 + size ≤ clocked then s.setPort p { x with state := .idle, slot := none, delivered := false }
      else s.setPort p { x with delivered := true } := by
  rw [modifyPort, setPort_port_same, setPort_setPort, settleFetch]
  split <;> rfl

/-- Settles O7: a FETCH that is a poll or does not count, one that delivers nothing, and one that settles the slot. -/
theorem fetchDelivers : Obligations.FetchDelivers := by
  intro p good clocked s x held e bytes x'
  have hbytes : envelopeBytes (fetchEnvelope (s.port p) good) = bytes :=
    congrArg envelopeBytes (fetchEnvelope_eq x good)
  have hdelivers : deliversAnswer (s.port p) good = held.isSome := deliversAnswer_eq x good
  have hend : s.endFrame p (bytes.take (clocked - 3)) = s.setPort p x' := rfl
  refine congrArg Host.Outcome.next ?_
  simp only [hbytes, hdelivers, hend]
  by_cases hshort : clocked < 3
  · rw [if_pos hshort, if_pos (.inl hshort), State.poll_whole]
  · rw [if_neg hshort]
    cases hcounts : s.frameCounts p with
    | false => exact (s.dropFrame_eq_untaken hcounts).trans (if_pos (.inr rfl)).symm
    | true =>
      rw [if_pos rfl, if_neg (c := clocked < 3 ∨ true = false) (by simp [hshort])]
      cases held with
      | none => rfl
      | some a => exact s.setPort_settleFetch p x' bytes.length clocked

/-! ## Bad frames (R157, R11) -/

/-- Settles O9: the answer, and the latch of a lost block. -/
theorem badFrameAnswers : Obligations.BadFrameAnswers := by
  intro p f s u
  have hanswer : (s.take p).answer p (flawCode f) [] = u := by
    rw [State.take_answer]
    cases f <;> rfl
  have hlost : losesBlock p f = true ↔ p = .scan ∧ f = .crc 0x21#8 := by
    cases f <;> simp [losesBlock]
  refine next_request ?_
  by_cases h : losesBlock p f = true
  · rw [if_pos h, if_pos (hlost.mp h), State.latchScan_eq_raise, State.raise_answer, hanswer]
    rfl
  · rw [if_neg h, if_neg (mt hlost.mpr h), hanswer]

end Sys2Proof.Machine

namespace Sys2Proof.Machine

/-! ## STATUS (R162) -/

theorem termBytes_eq (t : Term) : termBytes t = [if t = .all then 1#8 else 0#8] := by cases t <;> rfl

theorem geometryBytes_eq (g : Geometry) : geometryBytes g =
    u16 g.row ++ u16 g.first ++ u16 g.length ++ [if g.direction = .reverse then 1#8 else 0#8] := by
  rw [geometryBytes, directionBytes_eq]

theorem holdBytes_eq (sp : Spindle) :
    holdBytes sp = u16 sp.holdRemaining ++ [if sp.holdOrigin = .scan then 1#8 else 0#8] := by
  rw [holdBytes, holdOriginBytes_eq]

/-- The items of six records, one after another. -/
def sixItems (f : Fin 6 → List Byte) : List Byte := f 0 ++ f 1 ++ f 2 ++ f 3 ++ f 4 ++ f 5

theorem Six.flatMap_toList {α : Type} (t : Six α) (f : α → List Byte) :
    t.toList.flatMap f = sixItems fun i => f (t.get i) := by
  simp [Six.toList, Six.get, sixItems]

/-- The items of four records, one after another. -/
def fourItems (f : Fin 4 → List Byte) : List Byte := f 0 ++ f 1 ++ f 2 ++ f 3

theorem Four.flatMap_toList {α : Type} (t : Four α) (f : α → List Byte) :
    t.toList.flatMap f = fourItems fun i => f (t.get i) := by
  simp [Four.toList, Four.get, fourItems]

/-- The engine's item (R118). -/
theorem engineItems_eq (e : Engine) : engineItems e = (match e.inFlight with
    | none => [0x00#8]
    | some c => [0x01#8] ++ u8 (c.holder.val + 1) ++ keyBytes c.key ++ u16 c.made) ++ u8 (e.pointer.val + 1) := by
  unfold engineItems
  cases e.inFlight <;> rfl

/-- A merge in flight, or none (R140). -/
theorem optional_mergeItem_eq (merge : Option Merge) : optional mergeItem merge = match merge with
    | none => [0x00#8]
    | some m => [0x01#8] ++ keyBytes m.key ++ (match m.kind with
      | .heldIssued => [0x00#8]
      | .heldFenced => [0x01#8]
      | .stale => [0x02#8]) ++ u16 m.done := by
  rcases merge with _ | ⟨kind, _⟩
  · rfl
  · cases kind <;> rfl

/-- A staging slot in use, or none (R23). -/
theorem optional_slotItem_eq (slot : Option Slot) : optional slotItem slot = match slot with
    | none => [0x00#8]
    | some x => [0x01#8] ++ u8 x.key.tx ++ u8 x.key.ty ++ [if x.mode = .rescan then 1#8 else 0#8]
        ++ u16 x.samples.length ++ [if x.sealing then 1#8 else 0#8] := by
  rcases slot with _ | ⟨key, mode, _⟩
  · rfl
  · cases mode <;> rfl

/-- A held strip (R101): nothing but its key where its copy does not hold it (log 19). -/
theorem State.heldItem_eq (s : State) (h : Held) : s.heldItem h = keyBytes h.key ++ match s.strip? h.key with
    | none => []
    | some t => geometryBytes t.geometry
        ++ (match t.state with
          | .planned => [0x01#8]
          | .issued => [0x02#8]
          | .fenced => [0x03#8])
        ++ u16 (match t.lease with
          | some l => l.remaining
          | none => 0)
        ++ [if h.status = .complete then 1#8 else 0#8] := by
  unfold heldItem
  cases s.strip? h.key with
  | none => exact (List.append_nil _).symm
  | some t =>
    simp only [stripStateBytes_eq, leaseRemaining_eq, flag, decide_eq_true_eq, List.append_assoc]
      <;> rfl

/-- The computation status of a held strip (R118). -/
theorem State.statusItem_eq (s : State) (h : Held) : s.statusItem h = match h.status with
    | .awaiting => [0x00#8]
    | .computing => [0x01#8] ++ u16 (match s.engine.inFlight with
        | some c => c.made
        | none => 0)
    | .complete => [0x02#8]
    | .void => [0x03#8] := by
  unfold statusItem
  cases h.status <;> cases s.engine.inFlight <;> rfl

/-- What STATUS reads of the device is no part of a port. -/
theorem State.take_statusItems (s : State) (p : PortId) : (s.take p).statusItems p = s.statusItems p := by
  cases p <;> rfl

/-- A taken request leaves its port's latches, mask and term to be read (R155). -/
theorem State.take_portItems (s : State) (p : PortId) : portItems ((s.take p).port p) = portItems (s.port p) := by
  rw [take_eq_working, working, modifyPort_port_same]
  rfl

/-- Settles O8: the items of each port, put together as `State.statusItems` does. -/
theorem statusAnswers : Obligations.StatusAnswers := by
  intro p s bit six four key placed hold boxes items
  have hitems : s.statusItems p = items := by
    cases p with
    | plan =>
      simp only [State.statusItems, State.planItems, Six.flatMap_toList, copyStateBytes_eq, engineItems_eq,
        optional_mergeItem_eq, holdBytes_eq, ← List.append_assoc]
      rfl
    | scan =>
      simp only [State.statusItems, State.scanItems, Four.flatMap_toList, optional_slotItem_eq]
      cases hw : s.relief.wanted <;> simp only [items, hw] <;> rfl
    | spindle n =>
      have hheld : s.heldItem = _ := funext s.heldItem_eq
      have hstatus : s.statusItem = _ := funext s.statusItem_eq
      have hdeparted : departedItem = fun d =>
          key d.key ++ placed d.geometry.row d.geometry.first d.geometry.length d.geometry.direction :=
        funext fun d => congrArg (keyBytes d.key ++ ·) (geometryBytes_eq d.geometry)
      have hhold : holdBytes (s.spindle n) = hold n := holdBytes_eq _
      have hbound : optional (fun k : CopySlot => u8 k.val) (s.spindle n).bound = match (s.spindle n).bound with
          | none => [0x00#8]
          | some k => [0x01#8] ++ u8 k.val := by
        cases (s.spindle n).bound <;> rfl
      simp only [State.statusItems, State.spindleItems, counted, hheld, hstatus, hdeparted, hhold, hbound,
        geometryBytes_eq, ← List.append_assoc]
      rfl
  refine next_request ?_
  rw [State.take_portItems, State.take_statusItems, hitems, State.take_answer, portItems, termBytes_eq]

end Sys2Proof.Machine

namespace Sys2Proof.Machine

/-! ## A port after a reset (R163, R165, R179) -/

@[simp] theorem Ports.get_mapAll (ps : Ports) (f : PortId → Port → Port) (p : PortId) :
    (ps.mapAll f).get p = f p (ps.get p) := by
  cases p with
  | plan => rfl
  | scan => rfl
  | spindle n => fin_cases n <;> rfl

/-- Outside a reset of the device RESET_SEEN drives the line of a port that has been reset (R170, R174). -/
theorem refreshLine_fresh (p : PortId) (line : Bool) (frame : FramePhase) (out : Option FrameOut) :
    refreshLine false { Port.fresh p with line := line, frame := frame, out := out } =
      { Port.fresh p with frame := frame, out := out } := by
  show { Port.fresh p with line := !false && attention (Port.fresh p), frame := frame, out := out } = _
  rw [attention_fresh]
  rfl

theorem resetPort_false (p : PortId) (x : Port) :
    resetPort false p x = { Port.fresh p with frame := x.frame, out := x.out } :=
  refreshLine_fresh p true x.frame x.out

/-- A frame discarded stays discarded until it ends (R156). -/
theorem discardFrame_eq (x : Port) :
    discardFrame x = { x with frame := if x.frame = .none then .none else .dead } := by
  unfold discardFrame
  cases x.frame <;> rfl

theorem State.inReset_of_frameCounts {s : State} {p : PortId} (h : s.frameCounts p = true) : s.inReset = false := by
  unfold frameCounts at h
  simpa using (Bool.and_eq_true_iff.mp h).1

/-- What PORT RESET does to the port itself (R163): its frame ended and the port as new, but for the status byte it has
clocked out. -/
theorem State.resetPort_endFrame {s : State} {p : PortId} (h : s.frameCounts p = true) :
    (s.endFrame p []).resetPort p = s.setPort p (s.afterReset p) := by
  show (s.endFrame p []).modifyPort p (Machine.resetPort s.inReset p) = _
  rw [s.inReset_of_frameCounts h, endFrame, modifyPort_modifyPort, modifyPort, resetPort_false]
  rfl

/-- A PORT RESET or WARM RESET frame that does not count is not taken (R156). -/
theorem State.requestAnyState_untaken {s : State} {p : PortId} (h : s.frameCounts p = false) (f : State → State) :
    s.requestAnyState p f = s.untaken p := by
  rw [requestAnyState, h, if_neg Bool.false_ne_true, s.dropFrame_eq_untaken h]

/-- A PORT RESET or WARM RESET frame that counts is taken in any port state (R156). -/
theorem State.requestAnyState_counts {s : State} {p : PortId} (h : s.frameCounts p = true) (f : State → State) :
    s.requestAnyState p f = f (s.endFrame p []) := by
  rw [requestAnyState, if_pos h]

end Sys2Proof.Machine


namespace Sys2Proof.Machine

/-! ## PORT RESET of the Scan Port (R9, R18, R19, R20, R22) -/

/-- Whether staging slot i holds the tile of a key. -/
def State.slotHolds (s : State) (i : Fin 4) (key : TileKey) : Bool :=
  (s.staging.get i).any fun x => decide (x.key = key)

theorem State.findSlot_ne_none_iff (s : State) (key : TileKey) :
    s.findSlot key ≠ none ↔ allFour.any (s.slotHolds · key) = true := by
  rw [ne_eq, findSlot_eq_none_iff, List.any_eq_true]
  simp only [slotHolds, Option.any_eq_true, decide_eq_true_eq, mem_allFour, true_and]
  push Not
  rfl

/-- State t is s with the tiles of the held keys given up: each in the state it had before it was opened, and the wanted
tile none where it names one that has so become SEALED (R19, R22). -/
structure GivenUp (s t : State) (held : TileKey → Bool) : Prop where
  same : t = { s with relief := t.relief, staging := t.staging }
  mw : t.relief.mw = s.relief.mw
  mh : t.relief.mh = s.relief.mh
  sealedCount : t.relief.sealedCount = s.relief.sealedCount
  tile : ∀ key, t.relief.tile? key = (s.relief.tile? key).map fun u =>
    if held key then { u with state := returnState u.state } else u
  wanted : t.relief.wanted = s.relief.wanted.filter fun key => !(held key && t.relief.isSealed key)

section
variable {s t u : State} {held more : TileKey → Bool}

/-- A tile of a key that is not held is SEALED if it was. -/
theorem GivenUp.isSealed_eq (h : GivenUp s t held) {key : TileKey} (hk : held key = false) :
    t.relief.isSealed key = s.relief.isSealed key := by
  unfold Relief.isSealed
  rw [h.tile]
  cases s.relief.tile? key with
  | none => rfl
  | some u => simp only [Option.map_some, hk, Bool.false_eq_true, if_false]

/-- A tile that is SEALED remains so. -/
theorem GivenUp.isSealed_of (h : GivenUp s t held) {key : TileKey} (hk : s.relief.isSealed key = true) :
    t.relief.isSealed key = true := by
  obtain ⟨u, hu, hsealed⟩ := (s.relief.isSealed_eq_true_iff key).mp hk
  refine (t.relief.isSealed_eq_true_iff key).mpr ⟨_, (h.tile key).trans (congrArg _ hu), ?_⟩
  cases held key with
  | true => exact congrArg returnState hsealed
  | false => exact hsealed

theorem returnState_returnState (x : TileState) : returnState (returnState x) = returnState x := by
  cases x <;> rfl

/-- Tiles given up one after another: giving up a tile twice is giving it up once. -/
theorem GivenUp.trans (h : GivenUp s t held) (h' : GivenUp t u more) :
    GivenUp s u fun key => held key || more key where
  same := by rw [h'.same, h.same]
  mw := h'.mw.trans h.mw
  mh := h'.mh.trans h.mh
  sealedCount := h'.sealedCount.trans h.sealedCount
  tile key := by
    rw [h'.tile, h.tile, Option.map_map]
    congr 1
    funext x
    cases held key <;> cases more key <;> simp [returnState_returnState]
  wanted := by
    rw [h'.wanted, h.wanted, Option.filter_filter]
    congr 1
    funext key
    cases hm : more key with
    | true =>
      cases ht : t.relief.isSealed key with
      | true => simp [h'.isSealed_of ht]
      | false => simp
    | false => simp [h'.isSealed_eq hm]

/-- Where no key is held nothing is given up. -/
theorem GivenUp.refl (s : State) (hheld : ∀ key, held key = false) : GivenUp s s held where
  same := rfl
  mw := rfl
  mh := rfl
  sealedCount := rfl
  tile key := by simp only [hheld, Bool.false_eq_true, if_false, Option.map_id']
  wanted := by cases s.relief.wanted <;> simp [hheld, Option.filter]

theorem GivenUp.congr (h : GivenUp s t held) (he : ∀ key, held key = more key) : GivenUp s t more :=
  (funext he : held = more) ▸ h

end

theorem Relief.clearWanted_eq (r : Relief) (key : TileKey) : r.clearWanted key =
    { r with wanted := r.wanted.filter fun k => !(decide (key = k) && r.isSealed k) } := by
  rcases r with ⟨mw, mh, tiles, sealedCount, wanted⟩
  unfold clearWanted
  cases wanted with
  | none => rfl
  | some k =>
    by_cases hk : key = k
    · subst hk
      split <;> simp_all [Option.filter]
    · simp [hk, Ne.symm hk, Option.filter]

theorem Relief.giveUp_frame (r : Relief) (key : TileKey) : (r.giveUp key).frame = r.frame := by
  unfold giveUp modifyTile
  split <;> rfl

/-- One slot freed gives up the tile it holds, if it is in use (R19, R22). -/
theorem GivenUp.freeStaging (s : State) (i : Fin 4) : GivenUp s (s.freeStaging i) (s.slotHolds i) := by
  cases hx : s.staging.get i with
  | none =>
    have hfree : s.freeStaging i = s := by rw [State.freeStaging, hx]
    have hheld (key : TileKey) : s.slotHolds i key = false := by rw [State.slotHolds, hx]; rfl
    rw [hfree]
    exact .refl s hheld
  | some x =>
    have hfree : s.freeStaging i = (s.setRelief ((s.relief.giveUp x.key).clearWanted x.key)).setStaging i none := by
      rw [State.freeStaging, hx]
      rfl
    have hheld (key : TileKey) : s.slotHolds i key = decide (x.key = key) := by rw [State.slotHolds, hx]; rfl
    have hframe := s.relief.giveUp_frame x.key
    simp only [Relief.frame, Prod.mk.injEq] at hframe
    obtain ⟨hw, hh, hcount, hwanted⟩ := hframe
    rw [hfree, Relief.clearWanted_eq]
    refine ⟨rfl, hw, hh, hcount, fun key => ?_, ?_⟩
    · show (s.relief.giveUp x.key).tile? key = _
      rw [Relief.giveUp, Relief.tile?_modifyTile]
      by_cases hk : key = x.key
      · subst hk
        simp only [hheld, decide_true, if_true]
      · simp only [hheld, hk, Ne.symm hk, decide_false, Bool.false_eq_true, if_false, Option.map_id']
    · show (s.relief.giveUp x.key).wanted.filter _ = _
      simp only [hheld, hwanted]
      rfl

theorem State.freeStaging_slot (s : State) (i j : Fin 4) :
    (s.freeStaging i).staging.get j = if j = i then none else s.staging.get j := by
  unfold freeStaging
  by_cases hj : j = i
  · subst hj
    split
    · simp
    · next hx => rw [hx, if_pos rfl]
  · rw [if_neg hj]
    split
    · exact setStaging_get_ne _ _ _ _ hj
    · rfl

/-- Slots freed one after another are free, the others as they were. -/
theorem State.foldl_freeStaging_slot (l : List (Fin 4)) (s : State) (j : Fin 4) :
    (l.foldl freeStaging s).staging.get j = if j ∈ l then none else s.staging.get j := by
  induction l generalizing s with
  | nil => rfl
  | cons i l ih =>
    rw [List.foldl_cons, ih, freeStaging_slot]
    by_cases hl : j ∈ l <;> simp [hl]

/-- Slots freed one after another give up the tiles they hold. -/
theorem GivenUp.foldl (l : List (Fin 4)) (s : State) :
    GivenUp s (l.foldl State.freeStaging s) fun key => l.any (s.slotHolds · key) := by
  induction l generalizing s with
  | nil => exact .refl s fun _ => rfl
  | cons i l ih =>
    refine ((GivenUp.freeStaging s i).trans (ih _)).congr fun key => Bool.eq_iff_iff.mpr ?_
    have hothers (j : Fin 4) : (s.freeStaging i).slotHolds j key = true ↔ j ≠ i ∧ s.slotHolds j key = true := by
      rw [State.slotHolds, State.freeStaging_slot]
      by_cases hj : j = i <;> simp [hj, State.slotHolds]
    simp only [Bool.or_eq_true, List.any_cons, List.any_eq_true, hothers]
    grind

/-- Settles O14: the Scan Port's reset gives up the tiles of the four slots. -/
theorem planAndScanPortReset : Obligations.PlanAndScanPortReset := by
  unfold Obligations.PlanAndScanPortReset
  intro s
  refine ⟨?_, fun h => congrArg Host.Outcome.next (s.requestAnyState_untaken h _), fun h => ?_⟩
  · show (Host.Outcome.next (s.requestAnyState .plan _) : Result) = _
    cases h : s.frameCounts .plan with
    | true => rw [s.requestAnyState_counts h, s.resetPort_endFrame h, if_pos rfl]
    | false => rw [s.requestAnyState_untaken h, if_neg Bool.false_ne_true]
  · let w := s.setPort .scan (s.afterReset .scan)
    have hexec : exec (.portReset .scan) s = .next w.resetScan := by
      show (Host.Outcome.next (s.requestAnyState .scan _) : Result) = _
      rw [s.requestAnyState_counts h, s.resetPort_endFrame h]
    have hfound (key : TileKey) : s.findSlot key ≠ none ↔ allFour.any (w.slotHolds · key) = true :=
      s.findSlot_ne_none_iff key
    obtain ⟨hsame, hmw, hmh, hcount, htile, hwanted⟩ := GivenUp.foldl allFour w
    change w.resetScan = _ at hsame
    refine ⟨w.resetScan, hexec, ?_, ?_, fun i => ?_, hmw, hmh, hcount, fun key => ?_, fun key hkey => ?_, fun hn => ?_⟩
    · rw [hsame]
      refine ⟨nofun, nofun, fun _ => rfl, fun _ _ => rfl, fun _ _ => rfl, fun p hp => ?_, rfl, rfl, rfl⟩
      exact s.setPort_port_ne .scan p _ (by simpa using hp)
    · rw [hsame]
      exact s.setPort_port_same .scan _
    · exact (State.foldl_freeStaging_slot allFour w i).trans (if_pos (mem_allFour i))
    · refine (htile key).trans (congrArg (Option.map · _) (funext fun u => ?_))
      simp only [← hfound, ne_eq, ite_not]
    · rw [show w.relief.wanted = some key from hkey] at hwanted
      refine hwanted.trans ?_
      simp only [hfound, ← Bool.and_eq_true, Option.filter_some, Bool.not_eq_true', ← Bool.not_eq_true]
      exact ite_not ..
    · exact hwanted.trans (by rw [show w.relief.wanted = none from hn]; rfl)

end Sys2Proof.Machine


namespace Sys2Proof.Machine

/-! ## PORT RESET of a Spindle Port (R163) -/

theorem Engine.abandonFor_pointer (e : Engine) (n : SpindleId) : (e.abandonFor n).pointer = e.pointer := by
  unfold abandonFor
  split
  · split <;> rfl
  · rfl

/-- The computation for a strip of the spindle is abandoned, any other is kept (R109, R119). -/
theorem Engine.abandonFor_inFlight (e : Engine) (n : SpindleId) :
    (e.abandonFor n).inFlight = e.inFlight.filter fun c => decide (c.holder ≠ n) := by
  unfold abandonFor
  cases he : e.inFlight with
  | none => rw [he]; rfl
  | some c =>
    by_cases hc : c.holder = n
    · simp [hc, Option.filter]
    · simp [hc, he, Option.filter]

/-- What a reset of its port does to a spindle and to the strips it holds, before FENCED is latched on the Plan Port and
a grant is tested (R102, R119, R127). -/
def State.resetHolder (s : State) (n : SpindleId) : State :=
  ((s.fenceAll n (s.issuedStrips n)).modifySpindle n Spindle.portReset).setEngine (s.engine.abandonFor n)

/-- FENCED is latched on the Plan Port if the spindle had an ISSUED strip, and then a grant is tested (R119, R127). -/
theorem State.resetSpindle_eq (s : State) (n : SpindleId) : s.resetSpindle n = ((s.resetHolder n).setPort .plan
    ((if s.issuedStrips n = [] then s else s.raise .plan 3).port .plan)).grantTest := by
  have hraised : (s.resetHolder n).raise .plan 3 = (s.resetHolder n).setPort .plan ((s.raise .plan 3).port .plan) := by
    rw [raise_port_same]
    rfl
  have hquiet : s.resetHolder n = (s.resetHolder n).setPort .plan (s.port .plan) :=
    (congrArg (fun ps => { s.resetHolder n with ports := ps }) (Ports.set_get s.ports .plan)).symm
  show (if s.issuedStrips n = [] then s.resetHolder n else (s.resetHolder n).raise .plan 3).grantTest = _
  by_cases hs : s.issuedStrips n = []
  · rw [if_pos hs, if_pos hs, ← hquiet]
  · rw [if_neg hs, if_neg hs, hraised]

/-- Every held strip is VOID, those that were ISSUED being among them (R102, R104). -/
theorem State.resetHolder_spindle (s : State) (n : SpindleId) :
    (s.resetHolder n).spindle n = (s.spindle n).portReset := by
  show ((s.fenceAll n _).modifySpindle n Spindle.portReset).spindle n = _
  rw [modifySpindle_spindle_same, fenceAll_spindle, Spindle.portReset, Spindle.portReset, List.map_map]
  congr 1
  refine List.map_congr_left fun h _ => ?_
  rw [Function.comp_apply]
  split <;> rfl

theorem State.resetHolder_spindle_ne (s : State) {n j : SpindleId} (h : j ≠ n) :
    (s.resetHolder n).spindle j = s.spindle j :=
  (modifySpindle_spindle_ne _ _ _ _ h).trans (s.fenceAll_spindle_ne _ h)

/-- The Plan Port takes its latch whatever has been put on another port. -/
theorem State.raise_setPort_port (s : State) {p q : PortId} (x : Port) (bit : Nat) (h : p ≠ q) :
    ((s.setPort q x).raise p bit).port p = (s.raise p bit).port p := by
  rw [raise_port_same, raise_port_same, setPort_port_ne _ _ _ _ h]
  rfl

/-- Settles O15: the state tested for a grant is the spindle's reset after the port's own. -/
theorem spindlePortReset : Obligations.SpindlePortReset := by
  unfold Obligations.SpindlePortReset
  intro n s hs
  refine ⟨fun h => congrArg Host.Outcome.next (s.requestAnyState_untaken h _), fun h => ?_⟩
  let w := s.setPort (.spindle n) (s.afterReset (.spindle n))
  have hexec : exec (.portReset (.spindle n)) s = .next (w.resetSpindle n) := by
    show (Host.Outcome.next (s.requestAnyState (.spindle n) _) : Result) = _
    rw [s.requestAnyState_counts h, s.resetPort_endFrame h]
  have hplan : (if hs = [] then w else w.raise .plan 3).port .plan =
      (if hs = [] then s else s.raise .plan 3).port .plan := by
    by_cases he : hs = []
    · rw [if_pos he, if_pos he]
      exact State.setPort_port_ne _ _ _ _ nofun
    · rw [if_neg he, if_neg he]
      exact s.raise_setPort_port _ _ nofun
  refine ⟨_, hexec.trans (congrArg Host.Outcome.next (w.resetSpindle_eq n)), rfl, rfl, rfl, rfl, rfl, fun k => ?_, ?_,
    fun j hj => ?_, ?_, ?_, ?_, ?_, fun q hq hp => ?_⟩
  · exact w.fenceAll_copy n hs k
  · exact w.resetHolder_spindle n
  · exact w.resetHolder_spindle_ne hj
  · exact s.engine.abandonFor_pointer n
  · exact s.engine.abandonFor_inFlight n
  · have hne : PortId.spindle n ≠ .plan := nofun
    rw [State.setPort_port_ne _ _ _ _ hne]
    exact s.setPort_port_same (.spindle n) _
  · rw [State.setPort_port_same]
    exact hplan
  · rw [State.setPort_port_ne _ _ _ _ hp]
    exact s.setPort_port_ne (.spindle n) q _ hq

end Sys2Proof.Machine


namespace Sys2Proof.Machine

/-! ## WARM RESET (R164) -/

/-- A copy that is not CLEARING keeps its strips, the ISSUED ones fenced; no strip is under a merge any more (R46,
R84). -/
theorem Copy.warmReset_of_not_clearing {c : Copy} (h : c.state ≠ .clearing) : c.warmReset = { c with
    state := if c.state = .cutting then .paused else c.state
    queue := c.queue.map fun u =>
      if u.state = .issued then { u with state := .fenced, lease := none, underMerge := false }
      else { u with underMerge := false } } := by
  have hstrip : Strip.warmReset = fun u : Strip =>
      if u.state = .issued then { u with state := .fenced, lease := none, underMerge := false }
      else { u with underMerge := false } := by
    funext u
    unfold Strip.warmReset
    split <;> rfl
  unfold warmReset
  rw [hstrip]
  split <;> simp_all

theorem Copy.warmReset_of_clearing {c : Copy} (h : c.state = .clearing) : c.warmReset = Copy.free := by
  simp only [warmReset, h]

/-- The tiles of a relief after a WARM RESET, state by state (R24). -/
theorem Relief.warmReset_eq (r : Relief) : r.warmReset = { r with
    tiles := r.tiles.map fun u =>
      { u with state := match u.state with
        | .staging => .absent
        | .rescanning => .sealed
        | .absent => .absent
        | .sealed => .sealed }
    wanted := none } := by
  have hstate (u : TileState) : returnState u = match u with
      | .staging => .absent
      | .rescanning => .sealed
      | .absent => .absent
      | .sealed => .sealed := by
    cases u <;> rfl
  unfold warmReset
  simp only [hstate]

/-- A port that is reset by another port's frame has its own frame discarded (R156). -/
theorem warmPort_false (p : PortId) (x : Port) :
    warmPort false p x =
      { Port.fresh p with frame := if x.frame = .none then .none else .dead, out := x.out } := by
  rw [warmPort, resetPort_false, discardFrame_eq]

/-- The ports after a WARM RESET whose frame on the Plan Port counts (R156, R164). -/
theorem State.warmReset_port {s : State} (h : s.frameCounts .plan = true) (p : PortId) :
    (s.endFrame .plan []).warmReset.port p = if p = .plan then s.afterReset .plan else
      { Port.fresh p with frame := if (s.port p).frame = .none then .none else .dead, out := (s.port p).out } := by
  have hport : (s.endFrame .plan []).warmReset.port p = warmPort s.inReset p ((s.endFrame .plan []).port p) :=
    Ports.get_mapAll ..
  rw [hport, s.inReset_of_frameCounts h, warmPort_false, endFrame]
  by_cases hp : p = .plan
  · subst hp
    rw [if_pos rfl, modifyPort_port_same]
    rfl
  · rw [if_neg hp, modifyPort_port_ne _ _ _ _ hp]

/-- Settles O16, block by block. -/
theorem warmResetEffects : Obligations.WarmResetEffects := by
  unfold Obligations.WarmResetEffects
  intro s
  refine ⟨fun h => congrArg Host.Outcome.next (s.requestAnyState_untaken h _), fun h => ?_⟩
  have hcopy (k : CopySlot) : (s.endFrame .plan []).warmReset.copy k = (s.copy k).warmReset := Six.get_map ..
  refine ⟨(s.endFrame .plan []).warmReset, congrArg Host.Outcome.next (s.requestAnyState_counts h _),
    s.relief.warmReset_eq, fun i => Four.get_fill none i, fun k hk => ?_, fun k hk => ?_, fun n => ?_, rfl, rfl, ?_,
    fun q hq => ?_, rfl, rfl, rfl⟩
  · rw [hcopy, Copy.warmReset_of_clearing hk]
  · rw [hcopy, Copy.warmReset_of_not_clearing hk]
  · exact Six.get_map ..
  · rw [s.warmReset_port h, if_pos rfl]
  · rw [s.warmReset_port h, if_neg hq]

/-! ## Power-on and the RESET_N pin (R165, R179) -/

/-- The line that a reset of the device leaves on its ports: released while it lasts, driven low at its end (R179,
R181). -/
theorem State.holdReset_eq (s : State) : s.holdReset = { State.reset with
    ports := s.ports.mapAll fun p x =>
      { Port.fresh p with line := false, frame := if x.frame = .none then .none else .dead }
    inReset := true
    choices := s.choices
    pending := s.pending } := by
  have hport : heldPort = fun p x =>
      { Port.fresh p with line := false, frame := if x.frame = .none then .none else .dead } := by
    funext p x
    exact discardFrame_eq _
  rw [holdReset, hport]

/-- At the end of a reset every port asserts its line, for RESET_SEEN (R179). -/
theorem State.release_holdReset (s : State) : s.holdReset.release = { State.reset with
    ports := s.ports.mapAll fun p x =>
      { Port.fresh p with line := true, frame := if x.frame = .none then .none else .dead }
    inReset := false
    choices := s.choices
    pending := s.pending } := by
  rw [holdReset_eq, release]
  congr 1
  refine Ports.ext_get fun p => ?_
  rw [Ports.get_mapAll, Ports.get_mapAll, Ports.get_mapAll]
  exact refreshLine_fresh p false _ none

/-- Settles O17. -/
theorem powerOnAndResetPin : Obligations.PowerOnAndResetPin := by
  unfold Obligations.PowerOnAndResetPin
  intro high periods s
  refine ⟨?_, ?_, ?_⟩
  · show (Host.Outcome.next (if high then _ else _) : Result) = _
    cases high with
    | true => exact congrArg Host.Outcome.next s.release_holdReset
    | false => exact congrArg Host.Outcome.next s.holdReset_eq
  · show (Host.Outcome.next (if 25 ≤ periods then s.holdReset else s) : Result) = _
    rw [s.holdReset_eq]
    rfl
  · rfl

end Sys2Proof.Machine

namespace Sys2Proof.Machine

/-! ## What a request leaves of the latches, the mask, the term and the line (R170, R173, R174) -/

/-- Latches, mask and term of a port replaced, whatever its answer is (R171, R173). -/
theorem State.setEvents_answer (s : State) (p : PortId) (latches mask : Word) (term : Term) (c : AnswerCode)
    (d : List Byte) :
    (s.setEvents p latches mask term).answer p c d = (s.answer p c d).setEvents p latches mask term := by
  unfold setEvents answer
  rw [modifyPort_modifyPort, modifyPort_modifyPort]
  rfl

/-- A request taken leaves the latches, the mask and the term of its port (R155, R158). -/
theorem State.take_port_events (s : State) (p : PortId) :
    ((s.take p).port p).latches = (s.port p).latches ∧ ((s.take p).port p).mask = (s.port p).mask ∧
      ((s.take p).port p).term = (s.port p).term := by
  rw [take_eq_working, working, modifyPort_port_same]
  exact ⟨rfl, rfl, rfl⟩

/-- Port p's latches replaced (R171). -/
theorem State.modifyPort_latches (s : State) (p : PortId) (latches : Word) :
    (s.modifyPort p fun x => refreshLine s.inReset { x with latches := latches }) =
      s.setEvents p latches (s.port p).mask (s.port p).term := rfl

/-- Port p's mask and term replaced (R173). -/
theorem State.modifyPort_mask_term (s : State) (p : PortId) (mask : Word) (term : Term) :
    (s.modifyPort p fun x => refreshLine s.inReset { x with mask := mask, term := term }) =
      s.setEvents p (s.port p).latches mask term := rfl

/-- The terms R173 codes: 0 is ANY, 1 is ALL. -/
theorem termOf_cases (b : Byte) : b = 0#8 ∧ termOf b = some .any ∨ b = 1#8 ∧ termOf b = some .all ∨
    ¬ (b = 0#8 ∨ b = 1#8) ∧ termOf b = none := by
  by_cases h0 : b = 0#8
  · exact .inl ⟨h0, if_pos h0⟩
  · by_cases h1 : b = 1#8
    · exact .inr (.inl ⟨h1, by simp [termOf, h1]⟩)
    · exact .inr (.inr ⟨by simp [h0, h1], by simp [termOf, h0, h1]⟩)

/-- Settles O10: the events replaced are those of the port before the answer. -/
theorem eventAndAttentionRequests : Obligations.EventAndAttentionRequests := by
  intro p mask term s x named after
  obtain ⟨hlatches, hmask, hterm⟩ := s.take_port_events p
  have hnamed : defaultMask p = named := by cases p <;> rfl
  refine ⟨next_request ?_, next_request ?_⟩
  · have hafter : clearedLatches p ((s.take p).port p) mask = after := by
      rw [clearedLatches, namedBits, hlatches, hnamed]
    dsimp only
    rw [State.modifyPort_latches, State.setEvents_answer, State.take_answer, hafter, hlatches, hmask, hterm]
  · have hset (t : Term) : ((s.take p).modifyPort p fun x => refreshLine (s.take p).inReset
          { x with mask := mask &&& defaultMask p, term := t }).answer p .ok
            (word2 (mask &&& defaultMask p) ++ termBytes t) =
        (s.replied p .ok (word2 (mask &&& named) ++ termBytes t)).setEvents p x.latches (mask &&& named) t := by
      rw [State.modifyPort_mask_term, State.setEvents_answer, State.take_answer, hlatches, hnamed]
    obtain ⟨rfl, ht⟩ | ⟨rfl, ht⟩ | ⟨hne, ht⟩ := termOf_cases term
    · rw [ht, if_pos (.inl rfl)]
      exact hset .any
    · rw [ht, if_pos (.inr rfl)]
      exact hset .all
    · rw [ht, if_neg hne]
      exact s.take_answer _ _ _

end Sys2Proof.Machine

namespace Sys2Proof.Machine

/-! ## Mailboxes (R175 to R177) -/

/-- A box written and its reader's latch set, whatever the writer's answer is (R176). -/
theorem State.post_answer (s : State) (n : SpindleId) (f : Spindle → Spindle) (q p : PortId) (bit : Nat)
    (c : AnswerCode) (d : List Byte) : (((s.take p).modifySpindle n f).raise q bit).answer p c d =
      ((s.replied p c d).setSpindle n (f (s.spindle n))).raise q bit := by
  rw [State.raise_answer, ← State.take_answer]
  rfl

/-- A box read, whatever the answer is (R177). -/
theorem State.take_modifySpindle_answer (s : State) (n : SpindleId) (f : Spindle → Spindle) (p : PortId)
    (c : AnswerCode) (d : List Byte) : ((s.take p).modifySpindle n f).answer p c d =
      (s.replied p c d).setSpindle n (f (s.spindle n)) := by
  rw [← State.take_answer]
  rfl

/-- Settles O58: a post by whether the box is full, a read at once. -/
theorem mailboxRequests : Obligations.MailboxRequests := by
  intro spindle n x s items
  refine ⟨next_request ?_, next_request ?_, next_request ?_, next_request ?_⟩
  · cases spindleOf spindle with
    | none => exact s.take_answer _ _ _
    | some j => exact if_congr Iff.rfl (s.take_answer _ _ _) (s.post_answer j _ (.spindle j) .plan 6 .ok [])
  · exact if_congr Iff.rfl (s.take_answer _ _ _) (s.post_answer n _ .plan (.spindle n) 9 .ok [])
  · exact s.take_modifySpindle_answer n _ (.spindle n) .ok _
  · cases spindleOf spindle with
    | none => exact s.take_answer _ _ _
    | some j => exact s.take_modifySpindle_answer j _ .plan .ok _

end Sys2Proof.Machine

namespace Sys2Proof.Machine

/-! ## What one piece of a command does to the attention lines (R174) -/

/-- What an attention line follows, and the line itself. -/
def Port.events (x : Port) : Word × Word × Term × Bool := (x.latches, x.mask, x.term, x.line)

/-- The line of a port stands where its condition has it (R174, R181). -/
def Port.LineAgrees (inReset : Bool) (x : Port) : Prop := x.line = (!inReset && attention x)

theorem Port.LineAgrees.refreshLine (inReset : Bool) (x : Port) :
    (Machine.refreshLine inReset x).LineAgrees inReset := rfl

theorem Port.LineAgrees.of_events {inReset : Bool} {x y : Port} (h : x.LineAgrees inReset)
    (he : y.events = x.events) : y.LineAgrees inReset := by
  simp only [events, Prod.mk.injEq] at he
  obtain ⟨hlatches, hmask, hterm, hline⟩ := he
  have hattention : attention y = attention x := by unfold attention; rw [hlatches, hmask, hterm]
  rw [LineAgrees, hline, hattention]
  exact h

section
variable {s t : State}

/-- The ports as they were. -/
theorem LinesAgree.of_ports (h : LinesAgree s) (hp : t.ports = s.ports) (hr : t.inReset = s.inReset) :
    LinesAgree t := fun p => by
  rw [State.port, hp, hr]
  exact h p

/-- One port changed, its line where the condition then has it. -/
theorem LinesAgree.modifyPort (h : LinesAgree s) (p : PortId) {f : Port → Port}
    (hf : (s.port p).LineAgrees s.inReset → (f (s.port p)).LineAgrees s.inReset) : LinesAgree (s.modifyPort p f) := by
  intro q
  by_cases hq : q = p
  · rw [hq, State.modifyPort_port_same]
    exact hf (h p)
  · rw [State.modifyPort_port_ne _ _ _ _ hq]
    exact h q

/-- One port changed but for what its line follows: its state, its answer, its frame. -/
theorem LinesAgree.modifyPort_of_events (h : LinesAgree s) (p : PortId) {f : Port → Port}
    (hf : ∀ x, (f x).events = x.events) : LinesAgree (s.modifyPort p f) :=
  h.modifyPort p fun hp => hp.of_events (hf _)

/-- A port's events changed and its line evaluated afresh. -/
theorem LinesAgree.refreshPort (h : LinesAgree s) (p : PortId) (g : Port → Port) :
    LinesAgree (s.modifyPort p fun x => refreshLine s.inReset (g x)) := h.modifyPort p fun _ => .refreshLine _ _

/-- Every port put through a function that sets its line. -/
theorem LinesAgree.of_mapAll {f : PortId → Port → Port} (hp : t.ports = s.ports.mapAll f)
    (hf : ∀ p x, (f p x).LineAgrees t.inReset) : LinesAgree t := by
  intro p
  rw [State.port, hp, Ports.get_mapAll]
  exact hf p _

theorem LinesAgree.answer (h : LinesAgree s) (p : PortId) (c : AnswerCode) (d : List Byte) :
    LinesAgree (s.answer p c d) := h.modifyPort_of_events p fun _ => rfl

theorem LinesAgree.endFrame (h : LinesAgree s) (p : PortId) (envelope : List Byte) :
    LinesAgree (s.endFrame p envelope) := h.modifyPort_of_events p fun _ => rfl

theorem LinesAgree.dropFrame (h : LinesAgree s) (p : PortId) : LinesAgree (s.dropFrame p) :=
  h.modifyPort_of_events p fun _ => rfl

theorem LinesAgree.take (h : LinesAgree s) (p : PortId) : LinesAgree (s.take p) :=
  (h.endFrame p []).modifyPort_of_events p fun _ => rfl

theorem LinesAgree.latchPlan (h : LinesAgree s) (l : PlanLatch) : LinesAgree (s.latchPlan l) := h.refreshPort .plan _

theorem LinesAgree.latchScan (h : LinesAgree s) (l : ScanLatch) : LinesAgree (s.latchScan l) := h.refreshPort .scan _

theorem LinesAgree.latchSpindle (h : LinesAgree s) (n : SpindleId) (l : SpindleLatch) :
    LinesAgree (s.latchSpindle n l) := h.refreshPort (.spindle n) _

theorem LinesAgree.latchPlanIf (h : LinesAgree s) (c : Prop) [Decidable c] (l : PlanLatch) :
    LinesAgree (if c then s.latchPlan l else s) := by
  split
  · exact h.latchPlan l
  · exact h

/-- Hand-on work moves no line: it may answer a request, but it latches nothing. -/
theorem LinesAgree.of_work (h : LinesAgree s) (w : WorkKeeps s t) : LinesAgree t := fun p => by
  have hp : (t.port p).events = (s.port p).events := (congrArg Port.events (w.ports p) :)
  rw [w.inReset]
  exact Port.LineAgrees.of_events (h p) hp

theorem LinesAgree.handOn (h : LinesAgree s) (ts : List Chore) : LinesAgree (s.handOn ts) := h.of_work (.handOn s ts)

theorem LinesAgree.grantTest (h : LinesAgree s) : LinesAgree s.grantTest := h.of_work (.grantTest s)

theorem LinesAgree.decideReport (h : LinesAgree s) (n : SpindleId) (r : Report) : LinesAgree (s.decideReport n r) :=
  h.of_work (.decideReport s n r)

theorem LinesAgree.issue (h : LinesAgree s) (n : SpindleId) (k : CopySlot) (u : Strip) : LinesAgree (s.issue n k u) :=
  (h.of_work (.issueStrip s n k u)).grantTest

theorem LinesAgree.leave (h : LinesAgree s) (k : CopySlot) (u : Strip) (record : Bool) :
    LinesAgree (s.leave k u record) := h.of_ports (s.leave_ports k u record) (s.leave_inReset k u record)

theorem LinesAgree.leaveAndGrant (h : LinesAgree s) (k : CopySlot) (u : Strip) : LinesAgree (s.leaveAndGrant k u) := by
  obtain ⟨-, e⟩ | ⟨-, e⟩ := s.leaveAndGrant_cases k u <;> rw [e]
  · exact (h.leave k u true).grantTest
  · exact h.leave k u true

theorem LinesAgree.foldl {α : Type} (h : LinesAgree s) (f : State → α → State)
    (hf : ∀ v a, LinesAgree v → LinesAgree (f v a)) (l : List α) : LinesAgree (l.foldl f s) := by
  induction l generalizing s with
  | nil => exact h
  | cons a l ih => exact ih (hf s a h)

theorem LinesAgree.freeStaging (h : LinesAgree s) (i : Fin 4) : LinesAgree (s.freeStaging i) := by
  unfold State.freeStaging
  split <;> exact h

theorem LinesAgree.completePass (h : LinesAgree s) (k : CopySlot) : LinesAgree (s.completePass k) := by
  refine .latchPlan ?_ _
  exact h

theorem LinesAgree.testPass (h : LinesAgree s) (k : CopySlot) : LinesAgree (s.testPass k) := by
  unfold State.testPass
  dsimp only
  split
  · exact h.completePass k
  · exact h

theorem LinesAgree.setHold (h : LinesAgree s) (n : SpindleId) (time : Nat) (o : HoldOrigin) :
    LinesAgree (s.setHold n time o) := by
  refine .latchSpindle ?_ n _
  exact h

theorem LinesAgree.endHold (h : LinesAgree s) (n : SpindleId) : LinesAgree (s.endHold n) := by
  refine .latchSpindle ?_ n _
  exact h

/-- Strips fenced as one event, FENCED latched on both ports (R125, R127). -/
theorem LinesAgree.fence (h : LinesAgree s) (n : SpindleId) (hs : List Held) :
    LinesAgree (((s.fenceAll n hs).latchSpindle n .fenced).latchPlan .fenced) := by
  refine .latchPlan (.latchSpindle ?_ n _) _
  exact h

theorem LinesAgree.request (h : LinesAgree s) (p : PortId) {f : State → State}
    (hf : ∀ v, LinesAgree v → LinesAgree (f v)) : LinesAgree (s.request p f) := by
  unfold State.request
  split
  · split
    · exact h.endFrame p []
    · exact hf _ (h.take p)
  · exact h.dropFrame p

theorem LinesAgree.requestAnyState (h : LinesAgree s) (p : PortId) {f : State → State}
    (hf : ∀ v, LinesAgree v → LinesAgree (f v)) : LinesAgree (s.requestAnyState p f) := by
  unfold State.requestAnyState
  split
  · exact hf _ (h.endFrame p [])
  · exact h.dropFrame p

theorem LinesAgree.onCopy (h : LinesAgree s) (b : Byte) {f : CopySlot → State → State}
    (hf : ∀ k v, LinesAgree v → LinesAgree (f k v)) : LinesAgree (s.onCopy b f) := by
  refine h.request .plan fun v hv => ?_
  cases slotOf b with
  | none => exact hv.answer _ _ _
  | some k => exact hf k v hv

end

end Sys2Proof.Machine

namespace Sys2Proof.Machine

/-! ## Every command keeps the lines where the conditions have them -/

/-- A command answers, and every attention line stands where its port's condition has it, if it did before. -/
def KeepsLines (i : Instr) : Prop := ∀ s, LinesAgree s → ∃ t, exec i s = .next t ∧ LinesAgree t

/-! ### Frames and mailboxes -/

theorem LinesAgree.poll {s : State} (h : LinesAgree s) (p : PortId) (phase : PollPhase) :
    LinesAgree (s.poll p phase) := by
  cases phase <;> unfold State.poll <;> dsimp only <;> split <;> exact h.modifyPort_of_events p fun _ => rfl

/-- A FETCH that delivers an answer empties the slot or marks it delivered (R160). -/
theorem settleFetch_events (size clocked : Nat) (x : Port) : (settleFetch size clocked x).events = x.events := by
  unfold settleFetch
  split <;> rfl

theorem keepsLines_fetch (p : PortId) (crcGood : Bool) (clocked : Nat) : KeepsLines (.fetch p crcGood clocked) := by
  refine fun s h => ⟨_, rfl, ?_⟩
  split
  · exact h.poll p .whole
  · split
    · dsimp only
      split
      · exact (h.endFrame p _).modifyPort_of_events p (settleFetch_events _ clocked)
      · exact h.endFrame p _
    · exact h.dropFrame p

theorem keepsLines_badFrame (p : PortId) (flaw : FrameFlaw) : KeepsLines (.badFrame p flaw) := by
  refine fun s h => ⟨_, rfl, h.request p fun v hv => .answer ?_ _ _ _⟩
  split
  · exact hv.latchScan _
  · exact hv

theorem keepsLines_setAttention (p : PortId) (mask : Word) (term : Byte) : KeepsLines (.setAttention p mask term) := by
  refine fun s h => ⟨_, rfl, h.request p fun v hv => ?_⟩
  split
  · exact hv.answer _ _ _
  · exact (hv.refreshPort p _).answer _ _ _

theorem keepsLines_postOrder (spindle : Byte) (content : BitVec 64) : KeepsLines (.postOrder spindle content) := by
  refine fun s h => ⟨_, rfl, h.request .plan fun v hv => ?_⟩
  split
  · exact hv.answer _ _ _
  · split
    · exact hv.answer _ _ _
    · refine .answer (.latchSpindle ?_ _ _) _ _ _
      exact hv

theorem keepsLines_postNote (n : SpindleId) (content : BitVec 64) : KeepsLines (.postNote n content) := by
  refine fun s h => ⟨_, rfl, h.request (.spindle n) fun v hv => ?_⟩
  split
  · exact hv.answer _ _ _
  · refine .answer (.latchPlan ?_ _) _ _ _
    exact hv

/-! ### Resets -/

theorem LinesAgree.resetSpindle {s : State} (h : LinesAgree s) (n : SpindleId) : LinesAgree (s.resetSpindle n) := by
  have hholder : LinesAgree (s.resetHolder n) := h
  refine .grantTest ?_
  split
  · exact hholder
  · exact hholder.latchPlan _

theorem keepsLines_portReset (p : PortId) : KeepsLines (.portReset p) := by
  refine fun s h => ⟨_, rfl, h.requestAnyState p fun v hv => ?_⟩
  have hreset : LinesAgree (v.resetPort p) := hv.refreshPort p _
  cases p with
  | plan => exact hreset
  | scan => exact hreset.foldl _ (fun _ i hu => hu.freeStaging i) _
  | spindle n => exact hreset.resetSpindle n

theorem keepsLines_warmReset : KeepsLines .warmReset :=
  fun _ h => ⟨_, rfl, h.requestAnyState .plan fun v _ => .of_mapAll (s := v) rfl fun _ _ => rfl⟩

/-- Held in reset every line is released (R181). -/
theorem State.holdReset_linesAgree (s : State) : LinesAgree s.holdReset := .of_mapAll (s := s) rfl fun _ _ => rfl

/-- At the end of a reset every line is evaluated (R179). -/
theorem State.release_linesAgree (s : State) : LinesAgree s.release :=
  .of_mapAll (s := s) (f := fun _ x => refreshLine false x) rfl fun _ x => .refreshLine false x

theorem keepsLines_powerOn (resetHigh : Bool) : KeepsLines (.powerOn resetHigh) := by
  refine fun s _ => ⟨_, rfl, ?_⟩
  split
  · exact s.holdReset.release_linesAgree
  · exact s.holdReset_linesAgree

theorem keepsLines_resetPin (periods : Nat) : KeepsLines (.resetPin periods) := by
  refine fun s h => ⟨_, rfl, ?_⟩
  split
  · exact s.holdReset_linesAgree
  · exact h

theorem keepsLines_resetRelease : KeepsLines .resetRelease := by
  refine fun s h => ⟨_, rfl, ?_⟩
  split
  · exact s.release_linesAgree
  · exact h

/-! ### Time -/

theorem LinesAgree.leaseTick {s : State} (h : LinesAgree s) (n : SpindleId) : LinesAgree (s.leaseTick n) := by
  unfold State.leaseTick State.expire
  split
  · exact h
  · exact LinesAgree.fence (s := s.advanceLeases n) h n _

theorem LinesAgree.holdTick {s : State} (h : LinesAgree s) (n : SpindleId) : LinesAgree (s.holdTick n) := by
  unfold State.holdTick
  split
  · exact (h.endHold n).handOn _
  · exact h

theorem keepsLines_millisecondTick (n : SpindleId) : KeepsLines (.millisecondTick n) := by
  refine fun s h => ⟨_, rfl, ?_⟩
  split
  · exact h.holdTick n
  · exact h.leaseTick n

theorem keepsLines_leaseExpiry (n : SpindleId) : KeepsLines (.leaseExpiry n) := by
  refine fun s h => ⟨_, rfl, ?_⟩
  split
  · exact h.leaseTick n
  · exact h

theorem keepsLines_holdCountdownEnd (n : SpindleId) : KeepsLines (.holdCountdownEnd n) := by
  refine fun s h => ⟨_, rfl, ?_⟩
  split
  · exact h.holdTick n
  · exact h

/-! ### The relief and its tiles -/

theorem keepsLines_openTile (tx ty : Byte) : KeepsLines (.openTile tx ty) := by
  refine fun s h => ⟨_, rfl, h.request .scan fun v hv => ?_⟩
  have hclaim (i : Fin 4) (key : TileKey) (mode : SlotMode) (st : TileState) : LinesAgree (v.claim i key mode st) := hv
  dsimp only
  split
  · exact hv.answer _ _ _
  · split
    · exact hv.answer _ _ _
    · split
      · exact hv.answer _ _ _
      · exact hv.answer _ _ _
      · split
        · exact hv.answer _ _ _
        · exact (hclaim _ _ _ _).answer _ _ _
      · split
        · exact hv.answer _ _ _
        · split
          · exact hv.answer _ _ _
          · exact hclaim _ _ _ _

theorem keepsLines_rescanPreloadCompletion : KeepsLines .rescanPreloadCompletion := by
  refine fun s h => ⟨_, rfl, ?_⟩
  split
  · exact h
  · split
    · exact h
    · refine .answer ?_ _ _ _
      exact h

theorem keepsLines_sealTile (tx ty : Byte) (crc : Word) : KeepsLines (.sealTile tx ty crc) := by
  refine fun s h => ⟨_, rfl, h.request .scan fun v hv => ?_⟩
  split
  · exact hv.answer _ _ _
  · split
    · exact hv.answer _ _ _
    · dsimp only
      split
      · exact hv.answer _ _ _
      · exact hv

theorem LinesAgree.cancelScanHolds {s : State} (h : LinesAgree s) : LinesAgree s.cancelScanHolds := by
  refine h.foldl State.cancelScanHold (fun v n hv => ?_) allSix
  unfold State.cancelScanHold
  split
  · exact hv.endHold n
  · exact hv

theorem keepsLines_sealCompletion : KeepsLines .sealCompletion := by
  refine fun s h => ⟨_, rfl, ?_⟩
  split
  · exact h
  · split
    · exact h
    · refine .handOn (.cancelScanHolds (.latchPlan (.latchScan (.answer ?_ _ _ _) _) _)) _
      exact h

theorem keepsLines_dropTile (tx ty : Byte) : KeepsLines (.dropTile tx ty) := by
  refine fun s h => ⟨_, rfl, h.request .scan fun v hv => ?_⟩
  split
  · exact hv.answer _ _ _
  · exact (hv.freeStaging _).answer _ _ _

/-! ### Copies -/

theorem keepsLines_clearCompletion (slot : CopySlot) : KeepsLines (.clearCompletion slot) := by
  refine fun s h => ⟨_, rfl, ?_⟩
  split
  · refine .latchPlan ?_ _
    exact h
  · exact h

theorem LinesAgree.withdraw {s : State} (h : LinesAgree s) (k : CopySlot) (t : Strip) :
    LinesAgree (s.withdraw k t) := by
  unfold State.withdraw
  split
  · exact (h.leave k t true).latchSpindle _ _
  · exact h

theorem LinesAgree.withdrawAll {s : State} (h : LinesAgree s) (k : CopySlot) : LinesAgree (s.withdrawAll k) := by
  unfold State.withdrawAll
  dsimp only
  split
  · exact h
  · exact (LinesAgree.foldl (s := { s with choices := s.choices + 1 }) h _ (fun _ t hv => hv.withdraw k t) _).handOn _

theorem keepsLines_setPass (slot kind : Byte) (stepDown allowance : Word) :
    KeepsLines (.setPass slot kind stepDown allowance) := by
  refine fun s h => ⟨_, rfl, h.onCopy slot fun k v hv => ?_⟩
  dsimp only
  split
  · exact hv.answer _ _ _
  · split
    · exact hv.answer _ _ _
    · split
      · refine .withdrawAll (.answer ?_ _ _ _) k
        exact hv
      · exact .answer hv _ _ _

theorem keepsLines_resumeCopy (slot : Byte) : KeepsLines (.resumeCopy slot) := by
  refine fun s h => ⟨_, rfl, h.onCopy slot fun k v hv => ?_⟩
  dsimp only
  split
  · exact hv.answer _ _ _
  · split
    · exact (hv.completePass k).answer _ _ _
    · refine .handOn (.answer ?_ _ _ _) _
      exact hv

theorem LinesAgree.freeCopy {s : State} (h : LinesAgree s) (k : CopySlot) : LinesAgree (s.freeCopy k) :=
  (h.foldl (fun v t => v.leave k t false) (fun _ t hv => hv.leave k t false) _ :)

theorem keepsLines_closeCopy (slot : Byte) : KeepsLines (.closeCopy slot) := by
  refine fun s h => ⟨_, rfl, h.onCopy slot fun k v hv => ?_⟩
  have hfreed := (hv.freeCopy k).answer .plan .ok []
  dsimp only
  split
  · exact hv.answer _ _ _
  · split
    · exact hv.answer _ _ _
    · split
      · exact hfreed.grantTest
      · exact hfreed

theorem keepsLines_unbindSpindle (spindle : Byte) : KeepsLines (.unbindSpindle spindle) := by
  refine fun s h => ⟨_, rfl, h.request .plan fun v hv => ?_⟩
  split
  · exact hv.answer _ _ _
  · next n _ =>
    have hfenced : LinesAgree (v.fenceForUnbind n) := by
      unfold State.fenceForUnbind
      dsimp only
      split
      · exact hv
      · exact hv.fence n _
    exact .answer hfenced _ _ _

theorem keepsLines_readCopy (slot zero : Byte) : KeepsLines (.readCopy slot zero) := by
  refine fun s h => ⟨_, rfl, h.onCopy slot fun k v hv => .answer ?_ _ _ _⟩
  split <;> exact hv

/-! ### Plans -/

theorem LinesAgree.afterLoad {s : State} (h : LinesAgree s) (k : CopySlot) (accepted : Nat) (closed : Bool) :
    LinesAgree (s.afterLoad k accepted closed) := by
  have htested : LinesAgree (if closed then s.testPass k else s) := by
    split
    · exact h.testPass k
    · exact h
  unfold State.afterLoad
  dsimp only
  split
  · split
    · exact htested.handOn _
    · exact htested
  · exact h

theorem keepsLines_loadPlan (slot : Byte) (ds : List Descriptor) : KeepsLines (.loadPlan slot ds) := by
  refine fun s h => ⟨_, rfl, ?_⟩
  split
  · exact h.request .plan fun _ hv => hv.answer _ _ _
  · refine h.onCopy slot fun k v hv => ?_
    dsimp only
    split
    · exact hv.answer _ _ _
    · split
      · exact hv.answer _ _ _
      · split
        · exact hv.answer _ _ _
        · refine .afterLoad (.answer ?_ _ _ _) k _ _
          exact hv

/-! ### Issue, engine and queues -/

/-- A WAIT answer may latch DEMAND and HOLD_SET (R94, R95). -/
theorem LinesAgree.waitForScan {s : State} (h : LinesAgree s) (n : SpindleId) (k : CopySlot) (key : TileKey) :
    LinesAgree (s.waitForScan n k key) := by
  have hwanted : LinesAgree (s.offerWanted key) := by
    unfold State.offerWanted
    split
    · exact h
    · refine .latchScan ?_ _
      exact h
  refine .answer ?_ _ _ _
  unfold State.scanHold
  split
  · exact hwanted
  · exact hwanted.setHold n _ _

theorem LinesAgree.takeFrom {s : State} (h : LinesAgree s) (n : SpindleId) (k : CopySlot) :
    LinesAgree (s.takeFrom n k) := by
  unfold State.takeFrom
  split
  · exact (h.answer _ _ _).issue n k _
  · unfold State.noStrip
    split
    · exact h.answer _ _ _
    · split
      · exact h.answer _ _ _
      · split
        · exact h.answer _ _ _
        · exact h.waitForScan n k _

theorem keepsLines_takeStrip (n : SpindleId) : KeepsLines (.takeStrip n) := by
  refine fun s h => ⟨_, rfl, h.request (.spindle n) fun v hv => ?_⟩
  dsimp only
  split
  · exact hv.answer _ _ _
  · split
    · exact hv.answer _ _ _
    · split
      · exact hv.answer _ _ _
      · split
        · exact hv.answer _ _ _
        · exact hv.takeFrom n _
    all_goals exact hv.answer _ _ _

theorem keepsLines_setPrefetch (n : SpindleId) (threshold : Word) : KeepsLines (.setPrefetch n threshold) := by
  refine fun s h => ⟨_, rfl, h.request (.spindle n) fun v hv => .handOn (.answer ?_ _ _ _) _⟩
  exact hv

/-- A cell computed may latch STRIP_READY (R107). -/
theorem LinesAgree.placeCell {s : State} (h : LinesAgree s) (c : Computation) (g : Geometry) :
    LinesAgree (s.placeCell c g) := by
  rw [State.placeCell_eq]
  split
  · exact h.latchSpindle c.holder .stripReady
  · exact h

theorem keepsLines_computeCell : KeepsLines .computeCell := by
  refine fun s h => ⟨_, rfl, ?_⟩
  split
  · exact h
  · next c _ =>
    split
    · exact h
    · next t _ =>
      have hplaced := h.placeCell c t.geometry
      dsimp only
      split
      · refine .handOn ?_ _
        exact hplaced
      · exact hplaced

theorem keepsLines_drawTargets (n : SpindleId) (count : Byte) : KeepsLines (.drawTargets n count) := by
  refine fun s h => ⟨_, rfl, h.request (.spindle n) fun v hv => ?_⟩
  split
  · exact hv.answer _ _ _
  · dsimp only
    split
    · exact .answer hv _ _ _
    · refine .handOn ?_ _
      exact LinesAgree.answer (s := v.modifySpindle n _) hv _ _ _

/-! ### Fences and holds -/

theorem LinesAgree.releaseStrip {s : State} (h : LinesAgree s) (k : CopySlot) (t : Strip) (action : FenceAction) :
    LinesAgree (s.releaseStrip k t action) := by
  have hleft := h.leaveAndGrant k t
  refine .handOn (.answer ?_ _ _ _) _
  cases action with
  | requeue => exact hleft
  | discard =>
    refine .testPass ?_ k
    exact hleft

theorem keepsLines_releaseFence (slot : Byte) (index : Word) (action : Byte) :
    KeepsLines (.releaseFence slot index action) := by
  refine fun s h => ⟨_, rfl, h.request .plan fun v hv => ?_⟩
  split
  · split
    · exact hv.answer _ _ _
    · dsimp only
      split
      · exact hv.answer _ _ _
      · split
        · exact hv.answer _ _ _
        · split
          · exact hv.answer _ _ _
          · split
            · exact hv.answer _ _ _
            · exact hv.releaseStrip _ _ _
  · exact hv.answer _ _ _

theorem keepsLines_holdSpindle (spindle : Byte) (time : Word) : KeepsLines (.holdSpindle spindle time) := by
  refine fun s h => ⟨_, rfl, h.request .plan fun v hv => ?_⟩
  split
  · exact hv.answer _ _ _
  · next n _ =>
    split
    · exact (hv.setHold n _ _).answer _ _ _
    · split
      · exact ((hv.endHold n).answer _ _ _).handOn _
      · exact hv.answer _ _ _

/-! ### Cut reports -/

theorem keepsLines_reportCut (n : SpindleId) (slot : Byte) (index : Word) (issue : Byte) (floors : List Depth) :
    KeepsLines (.reportCut n slot index issue floors) := by
  refine fun s h => ⟨_, rfl, h.request (.spindle n) fun v hv => ?_⟩
  dsimp only
  split
  · exact hv
  · exact hv.decideReport n _

section
variable {s : State}

theorem LinesAgree.settle (h : LinesAgree s) (k : CopySlot) (t : Strip) (o : MergeOutcome) :
    LinesAgree (s.settle k t o) := by
  have hleft := h.leave k t true
  cases o with
  | none => exact h
  | removed =>
    refine .testPass ?_ k
    exact hleft
  | requeued retry => exact hleft
  | stuck =>
    refine .testPass (.latchPlan ?_ _) k
    exact hleft

theorem LinesAgree.settleMerge (h : LinesAgree s) (m : Merge) : LinesAgree (s.settleMerge m) := by
  unfold State.settleMerge
  split
  · exact h.settle _ _ _
  · exact h

/-- OVERCUT, SPOIL and STALE latched, whatever a spoil does to the copy (R147). -/
theorem LinesAgree.mergeEvents (h : LinesAgree s) (k : CopySlot) (m : Merge) : LinesAgree (s.mergeEvents k m) := by
  have hcut := (h.latchPlanIf (1 ≤ m.overcut) .overcut).latchPlanIf (1 ≤ m.spoil) .spoil
  unfold State.mergeEvents
  refine LinesAgree.latchPlanIf ?_ _ _
  split
  · exact hcut
  · exact hcut

theorem LinesAgree.completeMerge (h : LinesAgree s) (n : SpindleId) (m : Merge) : LinesAgree (s.completeMerge n m) := by
  have hended : LinesAgree ((s.modifyCopy m.key.copy fun c =>
      { c with counters := c.counters.countMerge m }).modifySpindle n fun sp => { sp with merge := none }) := h
  have hevents := (hended.settleMerge m).mergeEvents m.key.copy m
  unfold State.completeMerge State.answerMerge
  refine LinesAgree.handOn ?_ _
  split
  · exact hevents.answer _ _ _
  · exact hevents

end

theorem keepsLines_mergeCell (n : SpindleId) : KeepsLines (.mergeCell n) := by
  refine fun s h => ⟨_, rfl, ?_⟩
  split
  · exact h
  · next m _ =>
    split
    · exact h
    · next r _ =>
      have hmerged : LinesAgree (s.mergeOne n m r) := h
      dsimp only
      split
      · split
        · exact hmerged.completeMerge n _
        · exact hmerged
      · exact hmerged

/-- Every command keeps the lines: many requests latch nothing, and end with an answer whatever branch of their rule it
comes from. -/
theorem keepsLines (i : Instr) : KeepsLines i := by
  cases i with
  | status | renew | readOrder => exact fun s h => ⟨_, rfl, h.request _ fun v hv => .answer hv _ _ _⟩
  | clearEvents p mask => exact fun s h => ⟨_, rfl, h.request p fun v hv => (hv.refreshPort p _).answer _ _ _⟩
  | putSamples | viewStaging | defineRelief | bindSpindle | rewindStrip | readNote =>
    refine fun s h => ⟨_, rfl, h.request _ fun v hv => ?_⟩
    repeat' split
    all_goals exact .answer hv _ _ _
  | readRelief =>
    refine fun s h => ⟨_, rfl, h.request _ fun v hv => ?_⟩
    dsimp only
    repeat' split
    all_goals exact hv.answer _ _ _
  | defineCopy | pauseCopy =>
    refine fun s h => ⟨_, rfl, h.onCopy _ fun k v hv => ?_⟩
    repeat' split
    all_goals exact .answer hv _ _ _
  | startPass | readFloors | clearPlan | readStrip =>
    refine fun s h => ⟨_, rfl, h.onCopy _ fun k v hv => ?_⟩
    dsimp only
    repeat' split
    all_goals exact .answer hv _ _ _
  | fetch p crcGood clocked => exact keepsLines_fetch p crcGood clocked
  | statusPoll p phase => exact fun _ h => ⟨_, rfl, h.poll p phase⟩
  | badFrame p flaw => exact keepsLines_badFrame p flaw
  | setAttention p mask term => exact keepsLines_setAttention p mask term
  | portReset p => exact keepsLines_portReset p
  | warmReset => exact keepsLines_warmReset
  | powerOn resetHigh => exact keepsLines_powerOn resetHigh
  | resetPin periods => exact keepsLines_resetPin periods
  | resetRelease => exact keepsLines_resetRelease
  | millisecondTick n => exact keepsLines_millisecondTick n
  | leaseExpiry n => exact keepsLines_leaseExpiry n
  | holdCountdownEnd n => exact keepsLines_holdCountdownEnd n
  | openTile tx ty => exact keepsLines_openTile tx ty
  | rescanPreloadCompletion => exact keepsLines_rescanPreloadCompletion
  | sealTile tx ty crc => exact keepsLines_sealTile tx ty crc
  | sealCompletion => exact keepsLines_sealCompletion
  | dropTile tx ty => exact keepsLines_dropTile tx ty
  | clearCompletion slot => exact keepsLines_clearCompletion slot
  | setPass slot kind stepDown allowance => exact keepsLines_setPass slot kind stepDown allowance
  | resumeCopy slot => exact keepsLines_resumeCopy slot
  | closeCopy slot => exact keepsLines_closeCopy slot
  | unbindSpindle spindle => exact keepsLines_unbindSpindle spindle
  | readCopy slot zero => exact keepsLines_readCopy slot zero
  | loadPlan slot ds => exact keepsLines_loadPlan slot ds
  | takeStrip n => exact keepsLines_takeStrip n
  | setPrefetch n threshold => exact keepsLines_setPrefetch n threshold
  | computeCell => exact keepsLines_computeCell
  | drawTargets n count => exact keepsLines_drawTargets n count
  | releaseFence slot index action => exact keepsLines_releaseFence slot index action
  | holdSpindle spindle time => exact keepsLines_holdSpindle spindle time
  | reportCut n slot index issue floors => exact keepsLines_reportCut n slot index issue floors
  | mergeCell n => exact keepsLines_mergeCell n
  | postOrder spindle content => exact keepsLines_postOrder spindle content
  | postNote n content => exact keepsLines_postNote n content

/-- Settles O13: whatever sets a latch or a mask evaluates the line afresh, and nothing else of a port moves it. -/
theorem linesFollowCondition : Obligations.LinesFollowCondition := by
  intro s t hs h
  unfold step at h
  split at h
  · cases h
    exact hs
  · next i rest _ =>
    obtain ⟨u, hu, hlines⟩ := keepsLines i { s with pending := rest } hs
    obtain rfl : u = t := by simpa using hu.symm.trans h
    exact hlines

end Sys2Proof.Machine
